-- ==== Sys2Proof/Word.lean ====
section
/-! DEFINITION. The word types of the Bech32 codec core. Every value is unsigned and bit 0 is the least
significant (00_scope.md R8); only what the spec gives as bits is a bit vector here. -/

namespace Sys2Proof

/-- A 32-bit register of the window, and the value of a bus access (20_memory.md R38). -/
abbrev Word := BitVec 32

/-- A command word, bits 15:0 of a `CMD` write (30_encoding.md R48). -/
abbrev CommandWord := BitVec 16

/-- A byte: a command's operand `D` (R49), an ASCII code, an entry of the output queue (10_state.md R18). -/
abbrev Byte := BitVec 8

/-- A symbol: a value 0 to 31 (00_scope.md R7, `SYMBOL_WIDTH`). -/
abbrev Symbol := BitVec 5

/-- The checksum accumulator's 30 bits (00_scope.md R7, `CHK_WIDTH`). -/
abbrev Checksum := BitVec 30

/-- The converter's bit buffer, 16 bits (00_scope.md R7; 43_converter.md R87). -/
abbrev Buffer := BitVec 16

/-- A character string, as its 8-bit codes (42_checksum.md R74: "8-bit ASCII codes"). -/
abbrev Str := List Byte

/-- The codes of a literal, so that a string of the spec can be written as the spec writes it. -/
def ascii (text : String) : Str := text.toList.map fun c => BitVec.ofNat 8 c.toNat

end Sys2Proof
end

