-- ==== Sys2Proof/Config.lean ====
section
/-! DEFINITION. The parameters of 00_scope.md R7: those with one stated value are constants here. The two
that an implementation chooses, `OQ_DEPTH` and `BASE_ADDR`, are fields of the state that no step changes
(logs 2 and 3). The spec leaves no result undefined, so there is no free value. -/

namespace Sys2Proof.Config

/-- The reading of the `ID` register: 'B', '3', '2', version 1 (10_state.md R20). -/
def idValue : Word := 0x42333201

/-- The default of `OQ_DEPTH` (00_scope.md R7). -/
def oqDepthDefault : Nat := 16

/-- The least `OQ_DEPTH` (00_scope.md R7): the largest push of one command, `CV.PUSH` from 8 to 1. -/
def oqDepthMin : Nat := 8

/-- The greatest `OQ_DEPTH` (00_scope.md R7): what `PARAM[4:0]` can show. -/
def oqDepthMax : Nat := 31

/-- The window's size in bytes; `BASE_ADDR` is a multiple of it (20_memory.md R35). -/
def windowSize : Nat := 0x100

/-- `CHECKSUM_LEN` (00_scope.md R7). -/
def checksumLen : Nat := 6

/-- The shortest address string (44_host_codec.md R97). -/
def addressMin : Nat := 8

/-- The longest address string (44_host_codec.md R97). -/
def addressMax : Nat := 90

/-- The widest converter group (00_scope.md R7). -/
def widthMax : Nat := 8

end Sys2Proof.Config
end

