-- ==== Sys2Proof/Machine/State.lean ====
section
/-! DEFINITION. The state of the block as plain data: the record of 10_state.md R18, the two parameters an
implementation chooses, and the host's side of the bus (the accesses still to be served and the answers
given, log 1). -/

namespace Sys2Proof.Machine

/-- The case seen so far in the current string, `CASE` (10_state.md R18, 41_charset.md R65). The code 3 is
never held, so it is no constructor (log 11). -/
inductive CaseSeen where
  | none
  | lower
  | upper
  deriving DecidableEq, Repr

/-- The error codes of 60_exceptions.md R110. The codes 11 to 15 are never raised, so they are no
constructors (log 11). -/
inductive ErrCode where
  /-- 0: no error since the last clear. -/
  | noError
  /-- 1, `E_ILLEGAL`: an illegal encoding. -/
  | illegal
  /-- 2, `E_SYMRANGE`: a symbol operand above 31. -/
  | symRange
  /-- 3, `E_ASCII`: a character outside 33 to 126. -/
  | ascii
  /-- 4, `E_MIXEDCASE`: a letter of the other case. -/
  | mixedCase
  /-- 5, `E_CHARSET`: an in-band character outside the alphabet. -/
  | charset
  /-- 6, `E_CONV_DATA`: a pushed value of `2^FROM` or more. -/
  | convData
  /-- 7, `E_PAD_EXCESS`: too many leftover or padding bits at `CV.FLUSH`. -/
  | padExcess
  /-- 8, `E_PAD_NONZERO`: non-zero leftover bits at `CV.FLUSH` without padding. -/
  | padNonzero
  /-- 9, `E_CHECKSUM`: `CHK` is not 1 at `CK.VER`. -/
  | checksum
  /-- 10, `E_OQ_OVERFLOW`: the outputs do not fit the queue. -/
  | oqOverflow
  deriving DecidableEq, Repr

/-- What the host or the platform does to the block: a read or a write of some width, in bits, at an address
of the host's address space (20_memory.md R35, R37), or the reset line (70_reset_and_hazards.md R123). -/
inductive BusEvent where
  | read (width addr : Nat)
  | write (width addr : Nat) (value : Word)
  | reset
  deriving DecidableEq, Repr

/-- How the bus answers an access that reaches the window: a read's value, a write taken, or the error
response of a refused access (20_memory.md R37, R40, R41). -/
inductive Reply where
  | data (value : Word)
  | written
  | busError
  deriving DecidableEq, Repr

/-- The reasons a step stops. -/
inductive Fault where
  /-- Raised by `serve` for an access outside the window: it does not reach the block, and what answers it
  is the platform's (20_memory.md R35, R36). Safe: the model stops where the host goes on (log 5). -/
  | outsideWindow
  deriving DecidableEq, Repr

/-- The reasons a command has no meaning. -/
inductive Refusal where
  /-- A command `exec` does not model, by its mnemonic in the opcode table. No arm answers it: every command
  is modelled. Safe. -/
  | notModelled (mnemonic : String)
  deriving DecidableEq, Repr

/-- The machine. -/
structure State where
  /-- `BASE_ADDR / 0x100`, so that `BASE_ADDR` is a multiple of 0x100 (20_memory.md R35; log 2). -/
  basePage : Nat
  /-- `OQ_DEPTH` (10_state.md R29; log 3). -/
  oqDepth : Nat
  /-- `CHK`, the checksum accumulator (R18, R24). -/
  chk : Checksum
  /-- `CKRES`, the last result of `CK.FIN` (R18, R25). -/
  ckres : Checksum
  /-- `CKOK`, the result of the last `CK.VER` (R18, R31). -/
  ckok : Bool
  /-- `CASE`, the case tracker (R18, R31). -/
  caseSeen : CaseSeen
  /-- `FROM`, the converter's input width (R18, R26). -/
  fromW : Nat
  /-- `TO`, the converter's output width (R18, R26). -/
  toW : Nat
  /-- `PAD`, the padding mode (R18, R26). -/
  pad : Bool
  /-- `ACC`, the bit buffer (R18, R27). -/
  acc : Buffer
  /-- `BITS`, the number of buffered bits (R18, R27). -/
  bits : Nat
  /-- `OQ`, the output queue, head first (R18, R32). -/
  oq : List Byte
  /-- `ERR`, the first error since the last clear (R18, R31). -/
  err : ErrCode
  /-- `ERRINFO`, the `CMD` value that set `ERR` (R18, R23). -/
  errinfo : Word
  /-- The model's own: the host's accesses not served yet, oldest first (log 1). -/
  pending : List BusEvent
  /-- The model's own: the bus's answers, newest first (log 1). -/
  replies : List Reply
  deriving DecidableEq, Repr

/-- The state after reset (10_state.md R34, 70_reset_and_hazards.md R123). `OQ_DEPTH` has its default; the
window's page, the empty list of accesses and the empty list of answers are the model's (logs 1 and 2). -/
def State.reset : State where
  basePage := 0
  oqDepth := Config.oqDepthDefault
  chk := 0x00000001
  ckres := 0
  ckok := false
  caseSeen := .none
  fromW := 8
  toW := 5
  pad := true
  acc := 0
  bits := 0
  oq := []
  err := .noError
  errinfo := 0
  pending := []
  replies := []

end Sys2Proof.Machine
end

