-- ==== Sys2Proof/Machine/Charset.lean ====
section
/-! DEFINITION. Characters: letter case and the printable band (00_scope.md R11), the 32-character alphabet
and its inverse (41_charset.md R63, R64). -/

namespace Sys2Proof.Machine

/-- `'A'..'Z'` (00_scope.md R11). -/
def isUpperLetter (c : Byte) : Bool := decide (65 ≤ c.toNat) && decide (c.toNat ≤ 90)

/-- `'a'..'z'` (00_scope.md R11). -/
def isLowerLetter (c : Byte) : Bool := decide (97 ≤ c.toNat) && decide (c.toNat ≤ 122)

/-- `lower(c)` (00_scope.md R11). -/
def lower (c : Byte) : Byte := if isUpperLetter c then c + 32 else c

/-- `upper(c)` (00_scope.md R11). -/
def upper (c : Byte) : Byte := if isLowerLetter c then c - 32 else c

/-- `caseclass(c)` (00_scope.md R11). -/
def caseClass (c : Byte) : CaseSeen :=
  if isUpperLetter c then .upper else if isLowerLetter c then .lower else .none

/-- `inband(c)`: 33 to 126 (00_scope.md R11). -/
def inBand (c : Byte) : Bool := decide (33 ≤ c.toNat) && decide (c.toNat ≤ 126)

/-- `CHARSET`, symbol 0 first, in four rows of eight: `qpzry9x8`, `gf2tvdw0`, `s3jn54kh`, `ce6mua7l`
(41_charset.md R63; the 32nd character by 90_conflicts.md C1, log 13). -/
def charset : Str :=
  [0x71, 0x70, 0x7a, 0x72, 0x79, 0x39, 0x78, 0x38] ++
  [0x67, 0x66, 0x32, 0x74, 0x76, 0x64, 0x77, 0x30] ++
  [0x73, 0x33, 0x6a, 0x6e, 0x35, 0x34, 0x6b, 0x68] ++
  [0x63, 0x65, 0x36, 0x6d, 0x75, 0x61, 0x37, 0x6c]

/-- `CHARSET[v]`. The alphabet has 32 characters, so the default is never taken. -/
def charOf (v : Symbol) : Byte := charset.getD v.toNat 0

/-- `SYMOF(c)`: the symbol of a character in either case, or none (41_charset.md R64). -/
def symOf (c : Byte) : Option Symbol := (charset.findIdx? (· == lower c)).map (BitVec.ofNat 5)

end Sys2Proof.Machine
end

