-- ==== Sys2Proof/Machine/Checksum.lean ====
section
/-! DEFINITION. The checksum function (42_checksum.md R71 to R76). The constants are the spec's, which marks
them as general knowledge corroborated by its worked example (log 13). -/

namespace Sys2Proof.Machine

/-- `GEN[0..4]` (42_checksum.md R71). -/
def gen (i : Nat) : Checksum :=
  match i with
  | 0 => 0x3b6a57b2
  | 1 => 0x26508e6d
  | 2 => 0x1ea119fa
  | 3 => 0x3d4233dd
  | 4 => 0x2a1462b3
  | _ => 0

/-- `CHK_INIT` (42_checksum.md R73). -/
def chkInit : Checksum := 0x00000001

/-- `FINAL_CONST` (00_scope.md R7, 42_checksum.md R75). -/
def finalConst : Checksum := 0x00000001

/-- The constant that bit `i` of the shifted-out `b` selects (42_checksum.md R72). -/
def reduction (b : BitVec 5) (i : Nat) : Checksum := if b.getLsbD i then gen i else 0

/-- `step(c, v)` (42_checksum.md R72): the top five bits leave and select constants by bit index, the
symbol enters the low five bits. -/
def stepChk (c : Checksum) (v : Symbol) : Checksum :=
  let b := c.extractLsb' 25 5
  let shifted : Checksum := c.extractLsb' 0 25 ++ v
  shifted ^^^ reduction b 0 ^^^ reduction b 1 ^^^ reduction b 2 ^^^ reduction b 3 ^^^ reduction b 4

/-- `step` applied along a sequence of symbols from an accumulator `c`. -/
def stepAll (c : Checksum) (vs : List Symbol) : Checksum := vs.foldl stepChk c

/-- `polymod(vs)` (42_checksum.md R73). -/
def polymod (vs : List Symbol) : Checksum := stepAll chkInit vs

/-- The high part of an HRP character: `lower(c) >> 5` (42_checksum.md R74). -/
def hrpHigh (c : Byte) : Symbol := (lower c >>> 5).setWidth 5

/-- The low part of an HRP character: `lower(c) AND 31` (42_checksum.md R74). -/
def hrpLow (c : Byte) : Symbol := (lower c &&& 31).setWidth 5

/-- `hrp_expand(h)` (42_checksum.md R74). -/
def hrpExpand (h : Str) : List Symbol := h.map hrpHigh ++ [0] ++ h.map hrpLow

/-- The accumulator after six zero symbols (42_checksum.md R81). -/
def stepSixZeros (c : Checksum) : Checksum := stepAll c [0, 0, 0, 0, 0, 0]

/-- `create(h, ds)` (42_checksum.md R75). -/
def createChecksum (h : Str) (ds : List Symbol) : Checksum :=
  polymod (hrpExpand h ++ ds ++ [0, 0, 0, 0, 0, 0]) ^^^ finalConst

/-- Symbol `k` of a checksum, `r[29-5k : 25-5k]`, most significant group first (10_state.md R25). -/
def checksumSymbol (r : Checksum) (k : Nat) : Symbol := r.extractLsb' (25 - 5 * k) 5

/-- `symbols(r)`: the six checksum symbols (42_checksum.md R75). -/
def checksumSymbols (r : Checksum) : List Symbol := (List.range 6).map (checksumSymbol r)

/-- A string with HRP `h`, data `ds` and checksum symbols `cs` verifies (42_checksum.md R76). -/
def verifies (h : Str) (ds cs : List Symbol) : Bool :=
  polymod (hrpExpand h ++ ds ++ cs) == finalConst

end Sys2Proof.Machine
end

