-- ==== Sys2Proof/Syntax.lean ====
section
/-! DEFINITION. The 18 commands of 30_encoding.md R51, one constructor a row of the opcode table. -/

namespace Sys2Proof

/-- A command with its operand. `sym`, `char` and `value` operands are the whole byte `D`, in range or not:
the range is checked when the command executes, never by masking (30_encoding.md R50). The operands of
`cvCfg` and `cvCfgp` are the widths themselves, `FROM` and then `TO`, as the assembler writes them (R55). -/
inductive Instr where
  | nop
  | sysRst
  | sysClrerr
  | cmClr
  | cmEnc (v : Byte)
  | cmEncu (v : Byte)
  | cmDec (c : Byte)
  | cmCase (c : Byte)
  | ckInit
  | ckStep (v : Byte)
  | ckHrph (c : Byte)
  | ckHrpl (c : Byte)
  | ckFin
  | ckVer
  | cvCfg (fromW toW : Nat)
  | cvCfgp (fromW toW : Nat)
  | cvPush (x : Byte)
  | cvFlush
  deriving DecidableEq, Repr

end Sys2Proof
end

