-- ==== Sys2Proof/WellFormed.lean ====
section
/-! DEFINITION. Which terms of `Instr` some command word stands for. Every byte is encodable as `D`, so the
one thing to check is a width: 1 to 8 (30_encoding.md R50, "Both widths are always in 1 to 8"). -/

namespace Sys2Proof

/-- A converter width the 3-bit field can hold, as the value minus 1 (30_encoding.md R50). -/
def widthOk (n : Nat) : Bool := decide (1 ≤ n) && decide (n ≤ Config.widthMax)

/-- The well-formed commands: exactly those that a command word encodes. -/
def Instr.wellFormed : Instr → Bool
  | .cvCfg f t => widthOk f && widthOk t
  | .cvCfgp f t => widthOk f && widthOk t
  | .nop => true
  | .sysRst => true
  | .sysClrerr => true
  | .cmClr => true
  | .cmEnc _ => true
  | .cmEncu _ => true
  | .cmDec _ => true
  | .cmCase _ => true
  | .ckInit => true
  | .ckStep _ => true
  | .ckHrph _ => true
  | .ckHrpl _ => true
  | .ckFin => true
  | .ckVer => true
  | .cvPush _ => true
  | .cvFlush => true

end Sys2Proof
end

