-- ==== Sys2Proof/Decode.lean ====
section
/-! DEFINITION. From the 32-bit value written to `CMD` to a command or a named reason it is none
(30_encoding.md R52, R53), and back: the encoder, from the opcode map of R51. -/

namespace Sys2Proof

/-- Why a `CMD` value is an illegal encoding: the kinds of 30_encoding.md R53. All of them raise the one
error `E_ILLEGAL`. -/
inductive Illegal where
  /-- Bits 31:16 are not zero. -/
  | highHalf
  /-- `OP` 4 to 15. -/
  | reservedOp
  /-- A function number the unit does not have. -/
  | reservedFn
  /-- A non-zero `D` on a `none` command. -/
  | operandNotZero
  /-- `D[3]` or `D[7]` set on `CV.CFG` or `CV.CFGP`. -/
  | widthsBitSet
  deriving DecidableEq, Repr

/-- What decoding answers: `Command | Illegal` (30_encoding.md R52). -/
inductive Decoded where
  | command (i : Instr)
  | illegal (why : Illegal)
  deriving DecidableEq, Repr

/-- The command, if there is one. -/
def Decoded.toOption : Decoded → Option Instr
  | .command i => some i
  | .illegal _ => none

/-! ## Fields of the one format (30_encoding.md R49) -/

/-- `OP`, bits 15:12: the unit. -/
def opField (cw : CommandWord) : BitVec 4 := cw.extractLsb' 12 4

/-- `FN`, bits 11:8: the function within the unit. -/
def fnField (cw : CommandWord) : BitVec 4 := cw.extractLsb' 8 4

/-- `D`, bits 7:0: the operand. -/
def dField (cw : CommandWord) : Byte := cw.extractLsb' 0 8

/-- A `none` command: `D` must be 0 (30_encoding.md R50). -/
def noneForm (i : Instr) (d : Byte) : Decoded :=
  if d = 0 then .command i else .illegal .operandNotZero

/-- `FROM = D[2:0] + 1` (30_encoding.md R50). -/
def fromOfOperand (d : Byte) : Nat := (d.extractLsb' 0 3).toNat + 1

/-- `TO = D[6:4] + 1` (30_encoding.md R50). -/
def toOfOperand (d : Byte) : Nat := (d.extractLsb' 4 3).toNat + 1

/-- A `widths` command: `D[3]` and `D[7]` must be 0 (30_encoding.md R50, R52). -/
def widthsForm (make : Nat → Nat → Instr) (d : Byte) : Decoded :=
  if d.getLsbD 7 || d.getLsbD 3 then .illegal .widthsBitSet
  else .command (make (fromOfOperand d) (toOfOperand d))

/-! ## The decoder (30_encoding.md R52) -/

/-- `OP` = 0, SYS. -/
def decodeSys (fn : Nat) (d : Byte) : Decoded :=
  match fn with
  | 0 => noneForm .nop d
  | 1 => noneForm .sysRst d
  | 2 => noneForm .sysClrerr d
  | _ => .illegal .reservedFn

/-- `OP` = 1, CM. -/
def decodeCm (fn : Nat) (d : Byte) : Decoded :=
  match fn with
  | 0 => noneForm .cmClr d
  | 1 => .command (.cmEnc d)
  | 2 => .command (.cmEncu d)
  | 3 => .command (.cmDec d)
  | 4 => .command (.cmCase d)
  | _ => .illegal .reservedFn

/-- `OP` = 2, CK. -/
def decodeCk (fn : Nat) (d : Byte) : Decoded :=
  match fn with
  | 0 => noneForm .ckInit d
  | 1 => .command (.ckStep d)
  | 2 => .command (.ckHrph d)
  | 3 => .command (.ckHrpl d)
  | 4 => noneForm .ckFin d
  | 5 => noneForm .ckVer d
  | _ => .illegal .reservedFn

/-- `OP` = 3, CV. -/
def decodeCv (fn : Nat) (d : Byte) : Decoded :=
  match fn with
  | 0 => widthsForm .cvCfg d
  | 1 => widthsForm .cvCfgp d
  | 2 => .command (.cvPush d)
  | 3 => noneForm .cvFlush d
  | _ => .illegal .reservedFn

/-- The command a 16-bit command word stands for. -/
def decodeCommandWord (cw : CommandWord) : Decoded :=
  let fn := (fnField cw).toNat
  let d := dField cw
  match (opField cw).toNat with
  | 0 => decodeSys fn d
  | 1 => decodeCm fn d
  | 2 => decodeCk fn d
  | 3 => decodeCv fn d
  | _ => .illegal .reservedOp

/-- Decoding is total on every 32-bit `CMD` value (30_encoding.md R52). -/
def decode (w : Word) : Decoded :=
  if w.extractLsb' 16 16 ≠ 0 then .illegal .highHalf
  else decodeCommandWord (w.extractLsb' 0 16)

/-! ## Byte lanes (20_memory.md R38) -/

/-- Byte lane `k` of a word carries bits `8k+7 : 8k`. -/
def lane (w : Word) (k : Nat) : Byte := w.extractLsb' (8 * k) 8

/-- The word whose lanes 0 to 3 are the four bytes given. -/
def ofLanes (b0 b1 b2 b3 : Byte) : Word := b3 ++ b2 ++ b1 ++ b0

/-- Decoding from the four byte lanes, lane 0 first. -/
def decodeLanes (b0 b1 b2 b3 : Byte) : Decoded := decode (ofLanes b0 b1 b2 b3)

/-! ## The encoder (30_encoding.md R51) -/

/-- The one format `CW`: `OP`, `FN`, `D` from the top (30_encoding.md R49). -/
def commandWord (op fn : BitVec 4) (d : Byte) : CommandWord := op ++ fn ++ d

/-- The operand `tf` of `CV.CFG` and `CV.CFGP`: `TO - 1` in bits 6:4, `FROM - 1` in bits 2:0, bits 7 and 3
zero (30_encoding.md R51). -/
def widthsOperand (fromW toW : Nat) : Byte :=
  (0 : BitVec 1) ++ BitVec.ofNat 3 (toW - 1) ++ (0 : BitVec 1) ++ BitVec.ofNat 3 (fromW - 1)

/-- The command word of a well-formed command: the word column of 30_encoding.md R51. -/
def encodeCommandWord : Instr → CommandWord
  | .nop => commandWord 0 0 0
  | .sysRst => commandWord 0 1 0
  | .sysClrerr => commandWord 0 2 0
  | .cmClr => commandWord 1 0 0
  | .cmEnc v => commandWord 1 1 v
  | .cmEncu v => commandWord 1 2 v
  | .cmDec c => commandWord 1 3 c
  | .cmCase c => commandWord 1 4 c
  | .ckInit => commandWord 2 0 0
  | .ckStep v => commandWord 2 1 v
  | .ckHrph c => commandWord 2 2 c
  | .ckHrpl c => commandWord 2 3 c
  | .ckFin => commandWord 2 4 0
  | .ckVer => commandWord 2 5 0
  | .cvCfg f t => commandWord 3 0 (widthsOperand f t)
  | .cvCfgp f t => commandWord 3 1 (widthsOperand f t)
  | .cvPush x => commandWord 3 2 x
  | .cvFlush => commandWord 3 3 0

/-- The 32-bit value a host writes to `CMD` to issue the command: bits 31:16 are zero (30_encoding.md R48).
Each legal value decodes to one command, so this is also the value `ERRINFO` records when the command
raises an error (log 10). -/
def encode (i : Instr) : Word := (encodeCommandWord i).setWidth 32

/-! ## The opcode table's rows -/

/-- One row of the opcode table: a `CMD` value belongs to it when it agrees with `pattern` on `mask`. -/
structure OpcodeRow where
  mnemonic : String
  pattern : Word
  mask : Word
  deriving DecidableEq, Repr

/-- A row whose `D` is the operand. -/
def operandRow (mnemonic : String) (pattern : Word) : OpcodeRow := ⟨mnemonic, pattern, 0xFFFFFF00⟩

/-- A row marked `D = 0`. -/
def fixedRow (mnemonic : String) (pattern : Word) : OpcodeRow := ⟨mnemonic, pattern, 0xFFFFFFFF⟩

/-- A row of the `widths` form. -/
def widthsRow (mnemonic : String) (pattern : Word) : OpcodeRow := ⟨mnemonic, pattern, 0xFFFFFF88⟩

/-- The opcode map of 30_encoding.md R51, row by row. -/
def Instr.row : Instr → OpcodeRow
  | .nop => fixedRow "NOP" 0x0000
  | .sysRst => fixedRow "SYS.RST" 0x0100
  | .sysClrerr => fixedRow "SYS.CLRERR" 0x0200
  | .cmClr => fixedRow "CM.CLR" 0x1000
  | .cmEnc _ => operandRow "CM.ENC" 0x1100
  | .cmEncu _ => operandRow "CM.ENCU" 0x1200
  | .cmDec _ => operandRow "CM.DEC" 0x1300
  | .cmCase _ => operandRow "CM.CASE" 0x1400
  | .ckInit => fixedRow "CK.INIT" 0x2000
  | .ckStep _ => operandRow "CK.STEP" 0x2100
  | .ckHrph _ => operandRow "CK.HRPH" 0x2200
  | .ckHrpl _ => operandRow "CK.HRPL" 0x2300
  | .ckFin => fixedRow "CK.FIN" 0x2400
  | .ckVer => fixedRow "CK.VER" 0x2500
  | .cvCfg _ _ => widthsRow "CV.CFG" 0x3000
  | .cvCfgp _ _ => widthsRow "CV.CFGP" 0x3100
  | .cvPush _ => operandRow "CV.PUSH" 0x3200
  | .cvFlush => fixedRow "CV.FLUSH" 0x3300

/-! ## A word as the opcode table numbers it -/

/-- The 32-bit `CMD` value whose low `nbits` bits are `w`'s, every bit above being zero. -/
def tableWord (nbits w : Nat) : Nat := w % 2 ^ nbits

/-- The command the decoder reads from a table word, laid out in byte lanes as the bus carries it; none
where the value is illegal or needs more than the 32 bits of `CMD`. -/
def decodeTableWord (nbits w : Nat) : Option Instr :=
  if tableWord nbits w < 2 ^ 32 then
    let v := BitVec.ofNat 32 (tableWord nbits w)
    (decodeLanes (lane v 0) (lane v 1) (lane v 2) (lane v 3)).toOption
  else none

end Sys2Proof
end

