-- ==== Sys2Proof/Machine/Ops.lean ====
section
/-! DEFINITION. The shared operations over the state: the named updates, the output queue, error capture
(60_exceptions.md R111) and the return from it (R114), reset (70_reset_and_hazards.md R123), and the one
way a command runs (00_scope.md R12, 40_control.md R57). -/

namespace Sys2Proof.Machine

/-- What a step or a command answers. -/
abbrev Result := Host.Outcome State Fault Refusal

namespace State

/-! ## Named updates -/

/-- `CHK <- c`. -/
def setChk (s : State) (c : Checksum) : State := { s with chk := c }

/-- `CKRES <- c`. -/
def setCkres (s : State) (c : Checksum) : State := { s with ckres := c }

/-- `CKOK <- b`. -/
def setCkok (s : State) (b : Bool) : State := { s with ckok := b }

/-- `CASE <- k`. -/
def setCase (s : State) (k : CaseSeen) : State := { s with caseSeen := k }

/-- `FROM <- f; TO <- t; PAD <- p`. -/
def setConfig (s : State) (f t : Nat) (p : Bool) : State := { s with fromW := f, toW := t, pad := p }

/-- `ACC <- a; BITS <- b`. -/
def setBuffer (s : State) (a : Buffer) (b : Nat) : State := { s with acc := a, bits := b }

/-- `push(x)` for each of the outputs in order, once they are known to fit (00_scope.md R10). -/
def enqueue (s : State) (outs : List Byte) : State := { s with oq := s.oq ++ outs }

/-- `OQ <- tail(OQ)`: the pop of a read of `OQDATA` (10_state.md R28). -/
def dropHead (s : State) : State := { s with oq := s.oq.tail }

/-- `ERR <- code(E); ERRINFO <- w`: error capture, the block's trap entry (60_exceptions.md R111). -/
def capture (s : State) (e : ErrCode) (w : Word) : State := { s with err := e, errinfo := w }

/-- `ERR <- 0; ERRINFO <- 0`: recovery, the block's trap return (60_exceptions.md R114). -/
def clearError (s : State) : State := { s with err := .noError, errinfo := 0 }

/-- Every piece of the spec's state at its reset value (10_state.md R34). The parameters do not change
(70_reset_and_hazards.md R123), and the host's side of the bus is not the block's. -/
def resetBlock (s : State) : State :=
  { s with
    chk := 0x00000001, ckres := 0, ckok := false, caseSeen := .none
    fromW := 8, toW := 5, pad := true, acc := 0, bits := 0
    oq := [], err := .noError, errinfo := 0 }

/-- The host's accesses still to be served (log 1). -/
def setPending (s : State) (es : List BusEvent) : State := { s with pending := es }

/-- One more answer on the bus (log 1). -/
def logReply (s : State) (r : Reply) : State := { s with replies := r :: s.replies }

/-! ## The output queue and the lock -/

/-- The lock: `ERR != 0` (60_exceptions.md R112). -/
def locked (s : State) : Bool := decide (s.err ≠ .noError)

/-- `BASE_ADDR` (20_memory.md R35). -/
def baseAddr (s : State) : Nat := Config.windowSize * s.basePage

/-- Push the outputs of one command, checked against the capacity before any effect (10_state.md R32). -/
def push (s : State) (outs : List Byte) : Except ErrCode State :=
  if s.oq.length + outs.length ≤ s.oqDepth then .ok (s.enqueue outs) else .error .oqOverflow

end State

/-! ## Running a command -/

/-- Taking an error, the one operation that does (60_exceptions.md R111). -/
def raise (e : ErrCode) (w : Word) (s : State) : Result := .next (s.capture e w)

/-- The lock (60_exceptions.md R112): under it a command is discarded with no effect at all. -/
def unlessLocked (s : State) (run : Result) : Result := if s.locked then .next s else run

/-- A command whose rule either commits all of its effects or raises one error with none of them
(00_scope.md R12), under the lock (60_exceptions.md R112, R113). The error record is the command's own
`CMD` value. -/
def runRule (i : Instr) (rule : State → Except ErrCode State) (s : State) : Result :=
  unlessLocked s <|
    match rule s with
    | .ok t => .next t
    | .error e => raise e (encode i) s

/-- What an illegal encoding does: `E_ILLEGAL` with the value written, except under the lock
(30_encoding.md R53). -/
def runIllegal (w : Word) (s : State) : Result := unlessLocked s (raise .illegal w s)

end Sys2Proof.Machine
end

