-- ==== Sys2Proof/Machine/Operands.lean ====
section
/-! DEFINITION. The operand forms of 30_encoding.md R50: what a command reads from `D`, and the range check
that goes with it. The `none` and `widths` forms are checked by the decoder. -/

namespace Sys2Proof.Machine

/-- `sym`: `v = D`, and `D > 31` raises `E_SYMRANGE`. Never masked. -/
def symOperand (d : Byte) : Except ErrCode Symbol :=
  if 31 < d.toNat then .error .symRange else .ok (d.setWidth 5)

/-- `char`: `c = D`, and a code outside 33 to 126 raises `E_ASCII`. -/
def charOperand (d : Byte) : Except ErrCode Byte :=
  if inBand d then .ok d else .error .ascii

/-- `value`: `x = D`, and `x >= 2^FROM` raises `E_CONV_DATA`, tested as `(D >> FROM) != 0`
(43_converter.md R89). -/
def valueOperand (f : Nat) (d : Byte) : Except ErrCode Byte :=
  if d >>> f ≠ 0 then .error .convData else .ok d

/-- A data character's symbol: a character outside the alphabet raises `E_CHARSET` (41_charset.md R69). -/
def dataSymbol (c : Byte) : Except ErrCode Symbol :=
  match symOf c with
  | some v => .ok v
  | none => .error .charset

end Sys2Proof.Machine
end

