-- ==== Sys2Proof/Machine/Flags.lean ====
section
/-! DEFINITION. The three status flags (10_state.md R31): how `CASE` and `CKOK` are computed, the codes of
`ERR` and `CASE`, and the `STATUS` word that shows them (R22). -/

namespace Sys2Proof.Machine

/-- The value recorded in `STATUS.ERR` (60_exceptions.md R110). -/
def ErrCode.code : ErrCode → BitVec 4
  | .noError => 0
  | .illegal => 1
  | .symRange => 2
  | .ascii => 3
  | .mixedCase => 4
  | .charset => 5
  | .convData => 6
  | .padExcess => 7
  | .padNonzero => 8
  | .checksum => 9
  | .oqOverflow => 10

/-- The value shown in `STATUS.CASE` (10_state.md R22). -/
def CaseSeen.code : CaseSeen → BitVec 2
  | .none => 0
  | .lower => 1
  | .upper => 2

/-- The tracker after a character (41_charset.md R65): a character that is no letter keeps it, a letter sets
it when it is `NONE`, and a letter of the other class raises `E_MIXEDCASE`. -/
def trackCase (seen : CaseSeen) (c : Byte) : Except ErrCode CaseSeen :=
  if caseClass c = .none then .ok seen
  else if seen = .none then .ok (caseClass c)
  else if caseClass c = seen then .ok seen
  else .error .mixedCase

/-- `CKOK` as `CK.VER` computes it (42_checksum.md R82). -/
def checksumOk (c : Checksum) : Bool := decide (c = finalConst)

/-- The `STATUS` register (10_state.md R22): `OQCNT` in 20:16, `CASE` in 13:12, `CKOK` in 8, `ERR` in 3:0,
zero elsewhere. -/
def statusWord (s : State) : Word :=
  (0 : BitVec 11) ++ BitVec.ofNat 5 s.oq.length ++ (0 : BitVec 2) ++ s.caseSeen.code ++ (0 : BitVec 3) ++
    BitVec.ofBool s.ckok ++ (0 : BitVec 4) ++ s.err.code

end Sys2Proof.Machine
end

