-- ==== Sys2Proof/Machine/Ck.lean ====
section
/-! DEFINITION. The checksum generator's commands (42_checksum.md R77 to R82). -/

namespace Sys2Proof.Machine

/-- The rule of `CK.INIT` (R77). -/
def initChecksum (s : State) : Except ErrCode State := .ok (s.setChk chkInit)

/-- `CK.INIT` (R77): start a new checksum. -/
def execCkInit (s : State) : Result := runRule .ckInit initChecksum s

/-- The rule of `CK.STEP` (R78). -/
def foldSymbol (d : Byte) (s : State) : Except ErrCode State := do
  let v ← symOperand d
  .ok (s.setChk (stepChk s.chk v))

/-- `CK.STEP v` (R78): fold one symbol into the accumulator. -/
def execCkStep (v : Byte) (s : State) : Result := runRule (.ckStep v) (foldSymbol v) s

/-- Fold a part of an HRP character into the accumulator: the shared rule of R79 and R80. -/
def foldHrp (part : Byte → Symbol) (d : Byte) (s : State) : Except ErrCode State := do
  let c ← charOperand d
  .ok (s.setChk (stepChk s.chk (part c)))

/-- `CK.HRPH c` (R79): fold the high part of an HRP character. -/
def execCkHrph (c : Byte) (s : State) : Result := runRule (.ckHrph c) (foldHrp hrpHigh c) s

/-- `CK.HRPL c` (R80): fold the low part of an HRP character. -/
def execCkHrpl (c : Byte) (s : State) : Result := runRule (.ckHrpl c) (foldHrp hrpLow c) s

/-- The rule of `CK.FIN` (R81), computed on a copy of `CHK`. -/
def finishChecksum (s : State) : Except ErrCode State :=
  .ok (s.setCkres (stepSixZeros s.chk ^^^ finalConst))

/-- `CK.FIN` (R81): the checksum to append. -/
def execCkFin (s : State) : Result := runRule .ckFin finishChecksum s

/-- `CK.VER` (R82): verify. `CKOK` is written even when the command then errs, the one exception to
00_scope.md R12. -/
def execCkVer (s : State) : Result :=
  unlessLocked s <|
    let t := s.setCkok (checksumOk s.chk)
    if checksumOk s.chk then .next t else raise .checksum (encode .ckVer) t

end Sys2Proof.Machine
end

