-- ==== Sys2Proof/Machine/Cm.lean ====
section
/-! DEFINITION. The charset mapper's commands (41_charset.md R66 to R70). -/

namespace Sys2Proof.Machine

/-- The rule of `CM.CLR` (R66). -/
def clearCase (s : State) : Except ErrCode State := .ok (s.setCase .none)

/-- `CM.CLR` (R66): start a new string for case tracking. -/
def execCmClr (s : State) : Result := runRule .cmClr clearCase s

/-- Map a symbol to its character and push what `fold` makes of it: the shared rule of R67 and R68. -/
def encodeSymbol (fold : Byte → Byte) (d : Byte) (s : State) : Except ErrCode State := do
  let v ← symOperand d
  s.push [fold (charOf v)]

/-- `CM.ENC v` (R67): push the lowercase character of a symbol. -/
def execCmEnc (v : Byte) (s : State) : Result := runRule (.cmEnc v) (encodeSymbol id v) s

/-- `CM.ENCU v` (R68): push the uppercase character of a symbol. -/
def execCmEncu (v : Byte) (s : State) : Result := runRule (.cmEncu v) (encodeSymbol upper v) s

/-- The rule of `CM.DEC` (R69): band, case, alphabet, capacity, in that order; `CASE` changes only on
success. -/
def decodeChar (d : Byte) (s : State) : Except ErrCode State := do
  let c ← charOperand d
  let seen ← trackCase s.caseSeen c
  let v ← dataSymbol c
  let t ← s.push [v.setWidth 8]
  .ok (t.setCase seen)

/-- `CM.DEC c` (R69): push the symbol of a character, tracking case. -/
def execCmDec (c : Byte) (s : State) : Result := runRule (.cmDec c) (decodeChar c) s

/-- The rule of `CM.CASE` (R70): band, then case. -/
def checkChar (d : Byte) (s : State) : Except ErrCode State := do
  let c ← charOperand d
  let seen ← trackCase s.caseSeen c
  .ok (s.setCase seen)

/-- `CM.CASE c` (R70): check a character that is not mapped, tracking case. -/
def execCmCase (c : Byte) (s : State) : Result := runRule (.cmCase c) (checkChar c) s

end Sys2Proof.Machine
end

