-- ==== Sys2Proof/Machine/Converter.lean ====
section
/-! DEFINITION. Regrouping bits: the block's buffer operations (43_converter.md R89, R90) and the reference
function `convert_bits` over unbounded naturals (R86). -/

namespace Sys2Proof.Machine

/-! ## The block's buffer -/

/-- `mask(n)` (00_scope.md R9), at the buffer's width. -/
def mask (n : Nat) : Buffer := BitVec.ofNat 16 (2 ^ n - 1)

/-- The output group of `t` bits that lies above the low `b` bits of the buffer: `(a >> b) AND mask(t)`
(43_converter.md R89). -/
def bufferGroup (a : Buffer) (t b : Nat) : Byte := ((a >>> b) &&& mask t).setWidth 8

/-- The emission loop of 43_converter.md R89: the groups taken while at least `t` of the `b` bits remain,
oldest bits first, and the bits left. Each pass removes `t` bits, so `b` passes are enough for every width
the block can hold; `fuel` bounds them (log 12). -/
def emitGroups (a : Buffer) (t : Nat) : (fuel : Nat) → (b : Nat) → List Byte × Nat
  | 0, b => ([], b)
  | fuel + 1, b =>
    if t ≤ b then
      let rest := emitGroups a t fuel (b - t)
      (bufferGroup a t (b - t) :: rest.1, rest.2)
    else ([], b)

/-- The buffer after one more input group: `((ACC << FROM) OR D) AND 0xFFFF` (43_converter.md R89). -/
def bufferAfter (acc : Buffer) (f : Nat) (x : Byte) : Buffer := (acc <<< f) ||| x.setWidth 16

/-- The final group, padded with zeros in the low-order bits: `(ACC << (TO - BITS)) AND mask(TO)`
(43_converter.md R90). -/
def paddedGroup (acc : Buffer) (t b : Nat) : Byte := ((acc <<< (t - b)) &&& mask t).setWidth 8

/-! ## The reference function (43_converter.md R86) -/

/-- The reference's emission loop on a natural `acc`: the groups and the bits left. -/
def takeGroups (acc t : Nat) : (fuel : Nat) → (bits : Nat) → List Byte × Nat
  | 0, bits => ([], bits)
  | fuel + 1, bits =>
    if t ≤ bits then
      let rest := takeGroups acc t fuel (bits - t)
      (BitVec.ofNat 8 (acc / 2 ^ (bits - t) % 2 ^ t) :: rest.1, rest.2)
    else ([], bits)

/-- The reference's completion: what `acc` and `bits` leave at the end of the input. -/
def convertFinish (f t : Nat) (pad : Bool) (acc bits : Nat) : Except ErrCode (List Byte) :=
  if pad then
    if bits = 0 then .ok []
    else if f ≤ t - bits then .error .padExcess
    else .ok [BitVec.ofNat 8 (acc * 2 ^ (t - bits) % 2 ^ t)]
  else if f ≤ bits then .error .padExcess
  else if acc % 2 ^ bits ≠ 0 then .error .padNonzero
  else .ok []

/-- The reference's loop over the input, from a buffer `acc` of `bits` bits. -/
def convertFrom (f t : Nat) (pad : Bool) : List Byte → (acc bits : Nat) → Except ErrCode (List Byte)
  | [], acc, bits => convertFinish f t pad acc bits
  | x :: xs, acc, bits =>
    if 2 ^ f ≤ x.toNat then .error .convData
    else
      let acc' := acc * 2 ^ f + x.toNat
      let taken := takeGroups acc' t (bits + f) (bits + f)
      match convertFrom f t pad xs acc' taken.2 with
      | .ok out => .ok (taken.1 ++ out)
      | .error e => .error e

/-- `convert_bits(data, from, to, pad)` (43_converter.md R86), for widths 1 to 8. -/
def convertBits (data : List Byte) (f t : Nat) (pad : Bool) : Except ErrCode (List Byte) :=
  convertFrom f t pad data 0 0

/-- The sequence of `f`-bit groups read as one natural number, first group most significant. -/
def bitString (f : Nat) (data : List Byte) : Nat := data.foldl (fun n x => n * 2 ^ f + x.toNat) 0

end Sys2Proof.Machine
end

