-- ==== Sys2Proof/Machine/Cv.lean ====
section
/-! DEFINITION. The bit-group converter's commands (43_converter.md R88 to R90). -/

namespace Sys2Proof.Machine

/-- Configure and start a conversion: the shared rule of R88. Buffered bits are dropped, `OQ` is kept. -/
def configure (f t : Nat) (pad : Bool) (s : State) : Except ErrCode State :=
  .ok ((s.setConfig f t pad).setBuffer 0 0)

/-- `CV.CFG from, to` (R88): without padding. -/
def execCvCfg (fromW toW : Nat) (s : State) : Result :=
  runRule (.cvCfg fromW toW) (configure fromW toW false) s

/-- `CV.CFGP from, to` (R88): with padding. -/
def execCvCfgp (fromW toW : Nat) (s : State) : Result :=
  runRule (.cvCfgp fromW toW) (configure fromW toW true) s

/-- The rule of `CV.PUSH` (R89): range, emission, capacity; `ACC` and `BITS` change only on success. -/
def pushGroup (d : Byte) (s : State) : Except ErrCode State := do
  let x ← valueOperand s.fromW d
  let a := bufferAfter s.acc s.fromW x
  let emitted := emitGroups a s.toW (s.bits + s.fromW) (s.bits + s.fromW)
  let t ← s.push emitted.1
  .ok (t.setBuffer a emitted.2)

/-- `CV.PUSH x` (R89): accept one input group. -/
def execCvPush (x : Byte) (s : State) : Result := runRule (.cvPush x) (pushGroup x) s

/-- The groups a completion pushes, or why it fails (R90). -/
def finalGroups (s : State) : Except ErrCode (List Byte) :=
  if s.pad then
    if 0 < s.bits then
      if s.fromW ≤ s.toW - s.bits then .error .padExcess
      else .ok [paddedGroup s.acc s.toW s.bits]
    else .ok []
  else if s.fromW ≤ s.bits then .error .padExcess
  else if s.acc &&& mask s.bits ≠ 0 then .error .padNonzero
  else .ok []

/-- The rule of `CV.FLUSH` (R90): `FROM`, `TO` and `PAD` are kept. -/
def flushGroups (s : State) : Except ErrCode State := do
  let outs ← finalGroups s
  let t ← s.push outs
  .ok (t.setBuffer 0 0)

/-- `CV.FLUSH` (R90): complete the conversion. -/
def execCvFlush (s : State) : Result := runRule .cvFlush flushGroups s

end Sys2Proof.Machine
end

