-- ==== Sys2Proof/Machine/Sys.lean ====
section
/-! DEFINITION. The system commands (40_control.md R60 to R62). -/

namespace Sys2Proof.Machine

/-- `NOP` (R60): no operation. -/
def execNop (s : State) : Result := runRule .nop .ok s

/-- `SYS.RST` (R61): the whole block to its reset state. It executes under the lock. -/
def execSysRst (s : State) : Result := .next s.resetBlock

/-- `SYS.CLRERR` (R62): clear the captured error and leave the lock. It executes under the lock. -/
def execSysClrerr (s : State) : Result := .next s.clearError

end Sys2Proof.Machine
end

