-- ==== Sys2Proof/Machine/Dispatch.lean ====
section
/-! DEFINITION. What the block does when a command is written to `CMD`: one arm a command. -/

namespace Sys2Proof.Machine

def exec (i : Instr) (s : State) : Host.Outcome State Fault Refusal :=
  match i with
  | .nop => Sys2Proof.Machine.execNop s
  | .sysRst => Sys2Proof.Machine.execSysRst s
  | .sysClrerr => Sys2Proof.Machine.execSysClrerr s
  | .cmClr => Sys2Proof.Machine.execCmClr s
  | .cmEnc v => Sys2Proof.Machine.execCmEnc v s
  | .cmEncu v => Sys2Proof.Machine.execCmEncu v s
  | .cmDec c => Sys2Proof.Machine.execCmDec c s
  | .cmCase c => Sys2Proof.Machine.execCmCase c s
  | .ckInit => Sys2Proof.Machine.execCkInit s
  | .ckStep v => Sys2Proof.Machine.execCkStep v s
  | .ckHrph c => Sys2Proof.Machine.execCkHrph c s
  | .ckHrpl c => Sys2Proof.Machine.execCkHrpl c s
  | .ckFin => Sys2Proof.Machine.execCkFin s
  | .ckVer => Sys2Proof.Machine.execCkVer s
  | .cvCfg f t => Sys2Proof.Machine.execCvCfg f t s
  | .cvCfgp f t => Sys2Proof.Machine.execCvCfgp f t s
  | .cvPush x => Sys2Proof.Machine.execCvPush x s
  | .cvFlush => Sys2Proof.Machine.execCvFlush s

end Sys2Proof.Machine
end

