-- ==== Sys2Proof/Machine/Bus.lean ====
section
/-! DEFINITION. The register window: its map (20_memory.md R36), what each register reads as (10_state.md R20
to R30), and how the bus serves an access (20_memory.md R35, R37, R40, R41). -/

namespace Sys2Proof.Machine

/-- What stands at an offset of the window (20_memory.md R36). -/
inductive Register where
  | id
  | cmd
  | status
  | errinfo
  | chk
  | ckres
  | cvcfg
  | cvstate
  | oqdata
  | param
  | reserved
  deriving DecidableEq, Repr

/-- The window's map (20_memory.md R36): offsets 0x28 to 0xFC are reserved. -/
def registerAt (offset : Nat) : Register :=
  match offset with
  | 0x00 => .id
  | 0x04 => .cmd
  | 0x08 => .status
  | 0x0C => .errinfo
  | 0x10 => .chk
  | 0x14 => .ckres
  | 0x18 => .cvcfg
  | 0x1C => .cvstate
  | 0x20 => .oqdata
  | 0x24 => .param
  | _ => .reserved

/-- `CVCFG` (10_state.md R26): `PAD` in 8, `TO - 1` in 6:4, `FROM - 1` in 2:0, zero elsewhere. -/
def cvcfgWord (s : State) : Word :=
  (0 : BitVec 23) ++ BitVec.ofBool s.pad ++ (0 : BitVec 1) ++ BitVec.ofNat 3 (s.toW - 1) ++ (0 : BitVec 1) ++
    BitVec.ofNat 3 (s.fromW - 1)

/-- `CVSTATE` (10_state.md R27): `BITS` in 19:16, `ACC` in 15:0, zero elsewhere. -/
def cvstateWord (s : State) : Word := (0 : BitVec 12) ++ BitVec.ofNat 4 s.bits ++ s.acc

/-- `OQDATA` (10_state.md R28): the head with bit 8 set, or 0 for an empty queue. -/
def oqdataWord (s : State) : Word :=
  match s.oq with
  | [] => 0
  | x :: _ => ((1 : BitVec 1) ++ x).setWidth 32

/-- The 32-bit value a read of a register returns (10_state.md R20 to R30). -/
def registerValue (r : Register) (s : State) : Word :=
  match r with
  | .id => Config.idValue
  | .cmd => 0
  | .status => statusWord s
  | .errinfo => s.errinfo
  | .chk => s.chk.setWidth 32
  | .ckres => s.ckres.setWidth 32
  | .cvcfg => cvcfgWord s
  | .cvstate => cvstateWord s
  | .oqdata => oqdataWord s
  | .param => (BitVec.ofNat 5 s.oqDepth).setWidth 32
  | .reserved => 0

/-- What a read of a register leaves: only `OQDATA` has a side effect, the pop (20_memory.md R40). -/
def afterRead (r : Register) (s : State) : State := if r = .oqdata then s.dropHead else s

/-- A write of `w` to `CMD` (40_control.md R57): decode and execute, or raise `E_ILLEGAL`. The lock stands in
each of the two (log 9). -/
def issue (w : Word) (s : State) : Result :=
  match decode w with
  | .command i => exec i s
  | .illegal _ => runIllegal w s

/-- The same result with one more answer on the bus, where the machine goes on. -/
def answered (r : Reply) (o : Result) : Result :=
  match o with
  | .next s => .next (s.logReply r)
  | .fault e => .fault e
  | .refused e => .refused e

/-- The block answers only addresses `BASE_ADDR .. BASE_ADDR + 0xFF` (20_memory.md R35). -/
def inWindow (s : State) (addr : Nat) : Bool := decide (addr / Config.windowSize = s.basePage)

/-- Address bits 7:0, the offset (20_memory.md R35). -/
def offsetOf (addr : Nat) : Nat := addr % Config.windowSize

/-- Only 32-bit accesses at offsets that are multiples of 4 are admitted (20_memory.md R37). -/
def admitted (width addr : Nat) : Bool := decide (width = 32) && decide (offsetOf addr % 4 = 0)

/-- An admitted 32-bit read (20_memory.md R40). -/
def busRead (addr : Nat) (s : State) : Result :=
  let r := registerAt (offsetOf addr)
  .next ((afterRead r s).logReply (.data (registerValue r s)))

/-- An admitted 32-bit write (20_memory.md R41): at `CMD` it executes the command, anywhere else it is
ignored. -/
def busWrite (addr : Nat) (value : Word) (s : State) : Result :=
  if registerAt (offsetOf addr) = .cmd then answered .written (issue value s)
  else .next (s.logReply .written)

/-- An access that reaches the window is run if it is admitted, and otherwise gets the error response with
no other effect (20_memory.md R37; log 4). One outside the window does not reach the block (R35; log 5). -/
def reach (width addr : Nat) (s : State) (run : Result) : Result :=
  if inWindow s addr then
    if admitted width addr then run else .next (s.logReply .busError)
  else .fault .outsideWindow

/-- How the block serves one event. -/
def serve (e : BusEvent) (s : State) : Result :=
  match e with
  | .read width addr => reach width addr s (busRead addr s)
  | .write width addr value => reach width addr s (busWrite addr value s)
  | .reset => .next s.resetBlock

/-- The host's 32-bit write of `w` to `CMD`. -/
def cmdWrite (s : State) (w : Word) : BusEvent := .write 32 (s.baseAddr + 0x04) w

end Sys2Proof.Machine
end

