-- ==== Sys2Proof/Machine/Step.lean ====
section
/-! DEFINITION. One step: the block serves the host's oldest access (10_state.md R15, 70_reset_and_hazards.md
R130; log 1). -/

namespace Sys2Proof.Machine

/-- One step. With no access to serve the block holds its state (60_exceptions.md R122; log 6). -/
def step (s : State) : Host.Outcome State Fault Refusal :=
  match s.pending with
  | [] => .next s
  | e :: rest => serve e (s.setPending rest)

/-- The block fetches nothing (10_state.md R17): the next command is the host's next write to `CMD`. So the
word is placed as the oldest access still to be served (log 1). -/
def State.withFetchWord (s : State) (nbits w : Nat) : State :=
  s.setPending (cmdWrite s (BitVec.ofNat 32 (tableWord nbits w)) :: s.pending)

end Sys2Proof.Machine
end

