-- ==== Sys2Proof/Machine/Asm.lean ====
section
/-! DEFINITION. Assembler text (30_encoding.md R55) and the pseudo-instructions (R56). A pseudo-instruction is
exactly its expansion. White space, and what a string may hold, are the model's reading (log 18). -/

namespace Sys2Proof.Machine

/-! ## Pseudo-instructions (R56) -/

/-- The seven pseudo-instructions of R56. -/
inductive Pseudo where
  | ckHrp (s : Str)
  | ckData (vs : List Byte)
  | cmCases (s : Str)
  | cmDecs (s : Str)
  | cmEncs (vs : List Byte)
  | cvB2s
  | cvS2b
  deriving DecidableEq, Repr

/-- The expansion of a pseudo-instruction (R56). -/
def Pseudo.expand : Pseudo → List Instr
  | .ckHrp s => s.map .ckHrph ++ [.ckStep 0] ++ s.map .ckHrpl
  | .ckData vs => vs.map .ckStep
  | .cmCases s => s.map .cmCase
  | .cmDecs s => s.map .cmDec
  | .cmEncs vs => vs.map .cmEnc
  | .cvB2s => [.cvCfgp 8 5]
  | .cvS2b => [.cvCfg 5 8]

/-! ## Reading a line (R55) -/

/-- White space inside a line: a space or a tab. -/
def isBlank (c : Byte) : Bool := c == 0x20 || c == 0x09

/-- The text after its leading white space. -/
def skipBlanks (s : Str) : Str := s.dropWhile isBlank

/-- Nothing but white space and a comment, which `;` starts. -/
def atEnd (s : Str) : Bool :=
  match skipBlanks s with
  | [] => true
  | c :: _ => c == 0x3B

/-- A decimal digit's value. -/
def decimalDigit (c : Byte) : Option Nat :=
  if 0x30 ≤ c.toNat ∧ c.toNat ≤ 0x39 then some (c.toNat - 0x30) else none

/-- A hexadecimal digit's value, in either case. -/
def hexDigit (c : Byte) : Option Nat :=
  if 0x30 ≤ c.toNat ∧ c.toNat ≤ 0x39 then some (c.toNat - 0x30)
  else if 0x41 ≤ c.toNat ∧ c.toNat ≤ 0x46 then some (c.toNat - 0x41 + 10)
  else if 0x61 ≤ c.toNat ∧ c.toNat ≤ 0x66 then some (c.toNat - 0x61 + 10)
  else none

/-- The digits at the front of the text, added to a value so far, and the text after them. -/
def readDigits (base : Nat) (digit : Byte → Option Nat) : Str → Nat → Nat × Str
  | [], n => (n, [])
  | c :: rest, n =>
    match digit c with
    | some v => readDigits base digit rest (n * base + v)
    | none => (n, c :: rest)

/-- At least one digit in the base. -/
def readNumberIn (base : Nat) (digit : Byte → Option Nat) (s : Str) : Option (Nat × Str) :=
  match s with
  | [] => none
  | c :: rest => (digit c).map fun v => readDigits base digit rest v

/-- A numeric operand: decimal, or hexadecimal after `0x`. -/
def readNumber (s : Str) : Option (Nat × Str) :=
  match skipBlanks s with
  | 0x30 :: 0x78 :: rest => readNumberIn 16 hexDigit rest
  | t => readNumberIn 10 decimalDigit t

/-- A numeric operand that fits the field `D`: 0 to 255. -/
def readByte (s : Str) : Option (Byte × Str) :=
  match readNumber s with
  | some (n, rest) => if n ≤ 255 then some (BitVec.ofNat 8 n, rest) else none
  | none => none

/-- A `char` operand: a number, or a quoted character, which stands for its code. -/
def readChar (s : Str) : Option (Byte × Str) :=
  match skipBlanks s with
  | 0x27 :: c :: 0x27 :: rest => some (c, rest)
  | t => readByte t

/-- A converter width, written as itself, 1 to 8. -/
def readWidth (s : Str) : Option (Nat × Str) :=
  match readNumber s with
  | some (n, rest) => if widthOk n then some (n, rest) else none
  | none => none

/-- The text after a comma. -/
def readComma (s : Str) : Option Str :=
  match skipBlanks s with
  | 0x2C :: rest => some rest
  | _ => none

/-- The characters of a string in double quotes, and the text after it. -/
def readString (s : Str) : Option (Str × Str) :=
  match skipBlanks s with
  | 0x22 :: rest =>
    match rest.dropWhile (· != 0x22) with
    | _ :: after => some (rest.takeWhile (· != 0x22), after)
    | [] => none
  | _ => none

/-- One or more bytes separated by commas; `fuel` bounds their number. -/
def readBytes : (fuel : Nat) → Str → Option (List Byte × Str)
  | 0, _ => none
  | fuel + 1, s =>
    match readByte s with
    | none => none
    | some (v, rest) =>
      match readComma rest with
      | none => some ([v], rest)
      | some more => (readBytes fuel more).map fun p => (v :: p.1, p.2)

/-- What follows a mnemonic. -/
inductive AsmForm where
  | bare (is : List Instr)
  | number (make : Byte → Instr)
  | character (make : Byte → Instr)
  | widths (make : Nat → Nat → Instr)
  | text (make : Str → Pseudo)
  | numbers (make : List Byte → Pseudo)

/-- The mnemonics of the system commands and the charset mapper (R51). -/
def sysAndCmForms : List (String × AsmForm) :=
  [ ("NOP", .bare [.nop]), ("SYS.RST", .bare [.sysRst]), ("SYS.CLRERR", .bare [.sysClrerr]),
    ("CM.CLR", .bare [.cmClr]), ("CM.ENC", .number .cmEnc), ("CM.ENCU", .number .cmEncu),
    ("CM.DEC", .character .cmDec), ("CM.CASE", .character .cmCase) ]

/-- The mnemonics of the checksum generator and the converter (R51). -/
def ckAndCvForms : List (String × AsmForm) :=
  [ ("CK.INIT", .bare [.ckInit]), ("CK.STEP", .number .ckStep), ("CK.HRPH", .character .ckHrph),
    ("CK.HRPL", .character .ckHrpl), ("CK.FIN", .bare [.ckFin]), ("CK.VER", .bare [.ckVer]),
    ("CV.CFG", .widths .cvCfg), ("CV.CFGP", .widths .cvCfgp), ("CV.PUSH", .number .cvPush),
    ("CV.FLUSH", .bare [.cvFlush]) ]

/-- The pseudo-instructions (R56). -/
def pseudoForms : List (String × AsmForm) :=
  [ ("CK.HRP", .text .ckHrp), ("CK.DATA", .numbers .ckData), ("CM.CASES", .text .cmCases),
    ("CM.DECS", .text .cmDecs), ("CM.ENCS", .numbers .cmEncs), ("CV.B2S", .bare (Pseudo.expand .cvB2s)),
    ("CV.S2B", .bare (Pseudo.expand .cvS2b)) ]

/-- Every mnemonic with what follows it. -/
def asmForms : List (String × AsmForm) := sysAndCmForms ++ ckAndCvForms ++ pseudoForms

/-- Operands read whole: nothing but a comment may follow them. -/
def finish {α : Type} (parsed : Option (α × Str)) (make : α → List Instr) : Option (List Instr) :=
  match parsed with
  | some (a, rest) => if atEnd rest then some (make a) else none
  | none => none

/-- Two widths separated by a comma. -/
def readWidths (s : Str) : Option ((Nat × Nat) × Str) :=
  match readWidth s with
  | none => none
  | some (f, rest) =>
    match readComma rest with
    | none => none
    | some more => (readWidth more).map fun p => ((f, p.1), p.2)

/-- The operands of a form. -/
def readOperands (form : AsmForm) (s : Str) : Option (List Instr) :=
  match form with
  | .bare is => if atEnd s then some is else none
  | .number make => finish (readByte s) fun v => [make v]
  | .character make => finish (readChar s) fun c => [make c]
  | .widths make => finish (readWidths s) fun p => [make p.1 p.2]
  | .text make => finish (readString s) fun t => (make t).expand
  | .numbers make => finish (readBytes (s.length + 1) s) fun vs => (make vs).expand

/-- The commands one line of assembler text stands for (R55, R56): none for a blank line or a comment, and
no answer for an assembly error. -/
def assembleLine (s : Str) : Option (List Instr) :=
  if atEnd s then some []
  else
    let t := skipBlanks s
    let stops := fun c => isBlank c || c == 0x3B
    let name := t.takeWhile fun c => !stops c
    match asmForms.find? fun entry => ascii entry.1 == name with
    | some entry => readOperands entry.2 (t.dropWhile fun c => !stops c)
    | none => none

/-- A program listing: the `CMD` values of its lines in order. -/
def assemble (lines : List Str) : Option (List Word) :=
  (lines.mapM assembleLine).map fun groups => groups.flatten.map encode

/-! ## Writing a command as assembler text (R55) -/

/-- A hexadecimal digit's character. -/
def hexChar (n : Nat) : Byte := if n < 10 then BitVec.ofNat 8 (0x30 + n) else BitVec.ofNat 8 (0x57 + n)

/-- A byte as a numeric operand. -/
def byteText (b : Byte) : Str := [0x20, 0x30, 0x78, hexChar (b.toNat / 16), hexChar (b.toNat % 16)]

/-- The operand text of a command. -/
def operandText : Instr → Str
  | .nop => []
  | .sysRst => []
  | .sysClrerr => []
  | .cmClr => []
  | .cmEnc v => byteText v
  | .cmEncu v => byteText v
  | .cmDec c => byteText c
  | .cmCase c => byteText c
  | .ckInit => []
  | .ckStep v => byteText v
  | .ckHrph c => byteText c
  | .ckHrpl c => byteText c
  | .ckFin => []
  | .ckVer => []
  | .cvCfg f t => [0x20, hexChar f, 0x2C, 0x20, hexChar t]
  | .cvCfgp f t => [0x20, hexChar f, 0x2C, 0x20, hexChar t]
  | .cvPush x => byteText x
  | .cvFlush => []

/-- The assembler line of a well-formed command. -/
def render (i : Instr) : Str := ascii i.row.mnemonic ++ operandText i

end Sys2Proof.Machine
end

