-- ==== Sys2Proof/Machine/Codec.lean ====
section
/-! DEFINITION. The host's string functions as pure functions (44_host_codec.md R95 to R98, R100): the
reference that the procedures of HostProc.lean realise on the block. Strings are 8-bit codes and data symbols
are bytes, so that a value above 31 can be offered and refused (logs 15 and 16). -/

namespace Sys2Proof.Machine

/-- The host's closed error type (44_host_codec.md R95), with the witness layer's own errors
(45_host_witness.md R106, R108). -/
inductive HostError where
  | hrpEmpty
  | hrpMixedCase
  | hrpInvalidChar
  | lengthTooLong
  | lengthTooShort
  | mixedCase
  | invalidChar
  | missingSeparator
  | separatorPosition
  | dataInvalidChar
  | checksumMismatch
  | padNonZero
  | padExcess
  | convData
  | symbolRange
  | internal
  | versionTooLarge
  | programLength
  | v0ProgramLength
  | unknownHrp
  | emptyData
  deriving DecidableEq, Repr

/-- Which procedure a block error is met in: `E_ASCII` and `E_MIXEDCASE` have one host error each in encode
and in decode (44_host_codec.md R95). -/
inductive Procedure where
  | encode
  | decode
  deriving DecidableEq, Repr

/-- `hosterr(e)`: the host error a block error code is mapped to (44_host_codec.md R95). -/
def hostError (p : Procedure) (e : ErrCode) : HostError :=
  match e, p with
  | .symRange, _ => .symbolRange
  | .ascii, .encode => .hrpInvalidChar
  | .ascii, .decode => .invalidChar
  | .mixedCase, .encode => .hrpMixedCase
  | .mixedCase, .decode => .mixedCase
  | .charset, _ => .dataInvalidChar
  | .convData, _ => .convData
  | .padExcess, _ => .padExcess
  | .padNonzero, _ => .padNonZero
  | .checksum, _ => .checksumMismatch
  | .illegal, _ => .internal
  | .oqOverflow, _ => .internal
  | .noError, _ => .internal

/-! ## Case and band over a string -/

/-- A letter, of either case. -/
def isLetter (c : Byte) : Bool := isUpperLetter c || isLowerLetter c

/-- Two letters of different case. -/
def caseDiffers (c d : Byte) : Bool := isLetter c && isLetter d && decide (caseClass c ≠ caseClass d)

/-- One left-to-right scan, the first offending character winning: band before case for each character
(44_host_codec.md R98, R100). `seen` holds the characters before. -/
def scan (p : Procedure) (seen : Str) : Str → Except HostError Unit
  | [] => .ok ()
  | c :: rest =>
    if !inBand c then .error (hostError p .ascii)
    else if seen.any (caseDiffers c) then .error (hostError p .mixedCase)
    else scan p (seen ++ [c]) rest

/-- A valid HRP (44_host_codec.md R96): 1 to 83 characters of the band, letters of one case. -/
def validHrp (h : Str) : Bool :=
  decide (1 ≤ h.length) && decide (h.length ≤ 83) && h.all inBand &&
    !(h.any isUpperLetter && h.any isLowerLetter)

/-- The separator `'1'` (44_host_codec.md R97). -/
def separator : Byte := 0x31

/-- The length of the address string of an HRP and data (44_host_codec.md R98). -/
def addressLength (hrp : Str) (data : List Byte) : Nat :=
  hrp.length + 1 + data.length + Config.checksumLen

/-- The symbols of bytes already known to be 0 to 31. -/
def toSymbols (data : List Byte) : List Symbol := data.map (·.setWidth 5)

/-- The bytes of symbols. -/
def ofSymbols (vs : List Symbol) : List Byte := vs.map (·.setWidth 8)

/-! ## Encode (44_host_codec.md R98) -/

/-- The data and checksum characters, in upper case for an HRP with an uppercase letter. -/
def addressBody (hrp : Str) (data : List Symbol) : Str :=
  let body := (data ++ checksumSymbols (createChecksum hrp data)).map charOf
  if hrp.any isUpperLetter then body.map upper else body

/-- `encode(hrp, data)` (44_host_codec.md R98), with the checks in its order and `SymbolRange` after them
(92_eei_decisions.md D38). -/
def encodeString (hrp : Str) (data : List Byte) : Except HostError Str :=
  if hrp = [] then .error .hrpEmpty
  else
    match scan .encode [] hrp with
    | .error e => .error e
    | .ok () =>
      if Config.addressMax < addressLength hrp data then .error .lengthTooLong
      else if data.any (fun v => decide (31 < v.toNat)) then .error .symbolRange
      else .ok (hrp ++ [separator] ++ addressBody hrp (toSymbols data))

/-! ## Decode (44_host_codec.md R100) -/

/-- The largest index of a character (44_host_codec.md R100: the last `'1'`). -/
def lastIndexOf (c : Byte) : Str → Option Nat
  | [] => none
  | x :: rest =>
    match lastIndexOf c rest with
    | some p => some (p + 1)
    | none => if x = c then some 0 else none

/-- Each data character through the alphabet, failing on the first that is not in it. -/
def symbolsOf : Str → Except HostError (List Symbol)
  | [] => .ok []
  | c :: rest =>
    match symOf c with
    | none => .error (hostError .decode .charset)
    | some v =>
      match symbolsOf rest with
      | .ok vs => .ok (v :: vs)
      | .error e => .error e

/-- What follows the split at the separator. -/
def decodeParts (hrp rest : Str) : Except HostError (Str × List Byte) :=
  match symbolsOf rest with
  | .error e => .error e
  | .ok syms =>
    if polymod (hrpExpand hrp ++ syms) ≠ finalConst then .error (hostError .decode .checksum)
    else .ok (hrp, ofSymbols (syms.take (syms.length - Config.checksumLen)))

/-- `decode(s)` (44_host_codec.md R100), with the checks in its order. -/
def decodeString (s : Str) : Except HostError (Str × List Byte) :=
  if s.length < Config.addressMin then .error .lengthTooShort
  else if Config.addressMax < s.length then .error .lengthTooLong
  else
    match scan .decode [] s with
    | .error e => .error e
    | .ok () =>
      match lastIndexOf separator s with
      | none => .error .missingSeparator
      | some p =>
        if p = 0 ∨ s.length - p - 1 < Config.checksumLen then .error .separatorPosition
        else decodeParts (s.take p) (s.drop (p + 1))

end Sys2Proof.Machine
end

