-- ==== Sys2Proof/Machine/Witness.lean ====
section
/-! DEFINITION. The host's witness-program layer as pure functions (45_host_witness.md R103 to R108). The
network table and the policy are open parameters, so they are arguments (log 14). -/

namespace Sys2Proof.Machine

/-- A network's name: at least `Mainnet` and `Testnet`, and any further ones (45_host_witness.md R103). -/
inductive Network where
  | mainnet
  | testnet
  | other (n : Nat)
  deriving DecidableEq, Repr

/-- What `NETWORKS` leaves open (45_host_witness.md R103, 92_eei_decisions.md D32): the HRP of Mainnet, and the
further networks with theirs. -/
structure NetworkTable where
  mainnetHrp : Str
  others : List (Nat × Str)
  deriving DecidableEq, Repr

/-- The one HRP the spec derives: Testnet's is `tb` (45_host_witness.md R103). -/
def testnetHrp : Str := ascii "tb"

/-- `NETWORKS`: the table from network to HRP, which holds at least `Mainnet` and `Testnet`
(45_host_witness.md R103). -/
def NetworkTable.entries (table : NetworkTable) : List (Network × Str) :=
  (.mainnet, table.mainnetHrp) :: (.testnet, testnetHrp) :: table.others.map fun entry => (.other entry.1, entry.2)

/-- `POLICY(network, version, length)` (45_host_witness.md R105). DESIGN CHOICE: R105 does not say which
length; here it is the number of bytes of the program (log 22). -/
abbrev Policy := Network → Nat → Nat → Bool

/-- The default policy accepts everything (45_host_witness.md R105). -/
def acceptAll : Policy := fun _ _ _ => true

/-- `NETWORKS[n]`. -/
def NetworkTable.hrpOf (table : NetworkTable) (n : Network) : Option Str :=
  (table.entries.find? fun entry => entry.1 == n).map Prod.snd

/-- The network whose HRP is the given one up to case (45_host_witness.md R108). -/
def NetworkTable.networkOf (table : NetworkTable) (hrp : Str) : Option Network :=
  (table.entries.find? fun entry => entry.2.map lower == hrp.map lower).map Prod.fst

/-- An HRP the table may hold (45_host_witness.md R104): valid, lowercase, at most 18 characters. -/
def tableHrpOk (h : Str) : Bool := validHrp h && h.map lower == h && decide (h.length ≤ 18)

/-- The conditions on the table (45_host_witness.md R104). A table maps a network once, and HRPs are
distinct after case folding. That Mainnet and Testnet are in it holds of every table (R103). -/
abbrev NetworkTable.Valid (table : NetworkTable) : Prop :=
  (∀ entry ∈ table.entries, tableHrpOk entry.2 = true) ∧
  (table.entries.map Prod.fst).Nodup ∧
  (table.entries.map fun entry => entry.2.map lower).Nodup

/-- A witness program, never changed after construction (45_host_witness.md R106). -/
structure WitnessProgram where
  version : Nat
  program : List Byte
  network : Network
  deriving DecidableEq, Repr

/-- The general length checks and then the policy, which fails with `ProgramLength`
(45_host_witness.md R105, R106, R108). DESIGN CHOICE: the length given to the policy is the number of bytes of
the program (log 22). -/
def checkProgram (policy : Policy) (w : WitnessProgram) : Except HostError WitnessProgram :=
  if w.program.length < 2 ∨ 40 < w.program.length then .error .programLength
  else if w.version = 0 ∧ w.program.length ≠ 20 ∧ w.program.length ≠ 32 then .error .v0ProgramLength
  else if !policy w.network w.version w.program.length then .error .programLength
  else .ok w

/-- `WitnessProgram.new` (45_host_witness.md R106). -/
def WitnessProgram.new (policy : Policy) (version : Nat) (program : List Byte) (network : Network) :
    Except HostError WitnessProgram :=
  if 16 < version then .error .versionTooLarge else checkProgram policy ⟨version, program, network⟩

/-- The version as the first data symbol of an address (45_host_witness.md R107). DESIGN CHOICE: a version that
`new` never lets through and that no byte holds is offered as 255, so that encoding refuses it as it refuses
every version above 31 (log 23). -/
def versionSymbol (version : Nat) : Byte := BitVec.ofNat 8 (min version 255)

/-- `to_address(p)` (45_host_witness.md R107). A network that is not in the table has no HRP; that is a host
program fault (log 14). The spec gives it only programs that `new` has validated; what it does with any other
triple is the model's DESIGN CHOICE (log 23). -/
def toAddress (table : NetworkTable) (p : WitnessProgram) : Except HostError Str :=
  match convertBits p.program 8 5 true with
  | .error e => .error (hostError .encode e)
  | .ok groups =>
    match table.hrpOf p.network with
    | none => .error .internal
    | some hrp => encodeString hrp (versionSymbol p.version :: groups)

/-- What follows the decoding of an address: version, conversion and length checks
(45_host_witness.md R108). -/
def programOf (policy : Policy) (net : Network) : List Byte → Except HostError WitnessProgram
  | [] => .error .emptyData
  | v :: groups =>
    if 16 < v.toNat then .error .versionTooLarge
    else
      match convertBits groups 5 8 false with
      | .error e => .error (hostError .decode e)
      | .ok prog => checkProgram policy ⟨v.toNat, prog, net⟩

/-- `from_address(s)` (45_host_witness.md R108). -/
def fromAddress (table : NetworkTable) (policy : Policy) (s : Str) : Except HostError WitnessProgram :=
  match decodeString s with
  | .error e => .error e
  | .ok (hrp, data) =>
    match table.networkOf hrp with
    | none => .error .unknownHrp
    | some net => programOf policy net data

end Sys2Proof.Machine
end

