-- ==== Sys2Proof/Machine/HostProc.lean ====
section
/-! DEFINITION. The host's procedures realised on the block (44_host_codec.md R94, R99, R101;
45_host_witness.md R107, R108). They reach the block only through bus accesses, each of which is one step of
the machine. -/

namespace Sys2Proof.Machine

/-- A host procedure: it drives the block and ends with a result or a host error. -/
abbrev HostProc (α : Type) := State → Except HostError α × State

namespace HostProc

/-- End with a result. -/
def done {α : Type} (a : α) : HostProc α := fun s => (.ok a, s)

/-- End with a host error. -/
def fail {α : Type} (e : HostError) : HostProc α := fun s => (.error e, s)

/-- One procedure and then another with its result; a failure ends both. -/
def andThen {α β : Type} (p : HostProc α) (next : α → HostProc β) : HostProc β := fun s =>
  match p s with
  | (.ok a, t) => next a t
  | (.error e, t) => (.error e, t)

/-- A host check. -/
def require (ok : Bool) (e : HostError) : HostProc Unit := if ok then done () else fail e

end HostProc

open HostProc

/-! ## Bus accesses and the primitives of R94 -/

/-- One bus access: the block serves it in one step, and the host sees the answer. -/
def hostAccess (e : BusEvent) : HostProc Reply := fun s =>
  match step (s.setPending (e :: s.pending)) with
  | .next t =>
    match t.replies with
    | r :: _ => (.ok r, t)
    | [] => (.error .internal, t)
  | .fault _ => (.error .internal, s)
  | .refused _ => (.error .internal, s)

/-- `MemRead(BASE_ADDR + off, 4)`. -/
def memRead (off : Nat) : HostProc Word := fun s =>
  match hostAccess (.read 32 (s.baseAddr + off)) s with
  | (.ok (.data v), t) => (.ok v, t)
  | (.ok _, t) => (.error .internal, t)
  | (.error e, t) => (.error e, t)

/-- `MemWrite(BASE_ADDR + off, 4, v)`. -/
def memWrite (off : Nat) (v : Word) : HostProc Unit := fun s =>
  match hostAccess (.write 32 (s.baseAddr + off) v) s with
  | (.ok .written, t) => (.ok (), t)
  | (.ok _, t) => (.error .internal, t)
  | (.error e, t) => (.error e, t)

/-- The error code a `STATUS` field shows (60_exceptions.md R110); the reserved codes are never shown. -/
def errOfCode (e : BitVec 4) : ErrCode :=
  match e.toNat with
  | 1 => .illegal
  | 2 => .symRange
  | 3 => .ascii
  | 4 => .mixedCase
  | 5 => .charset
  | 6 => .convData
  | 7 => .padExcess
  | 8 => .padNonzero
  | 9 => .checksum
  | 10 => .oqOverflow
  | _ => .noError

/-- `cmd(w)`: write the command, read `STATUS`, fail on an error (R94). -/
def cmd (p : Procedure) (i : Instr) : HostProc Unit :=
  (memWrite 0x04 (encode i)).andThen fun _ =>
  (memRead 0x08).andThen fun status =>
  let e := status.extractLsb' 0 4
  if e ≠ 0 then fail (hostError p (errOfCode e)) else done ()

/-- `cmd` applied to each word of a sequence (R94, R56). -/
def cmds (p : Procedure) : List Instr → HostProc Unit
  | [] => done ()
  | i :: rest => (cmd p i).andThen fun _ => cmds p rest

/-- `pop()`: one entry of the queue (R94). -/
def pop : HostProc Byte :=
  (memRead 0x20).andThen fun r => if r.getLsbD 8 then done (r.extractLsb' 0 8) else fail .internal

/-- `ckres()`: the checksum result (R94). -/
def readCkres : HostProc Checksum := (memRead 0x14).andThen fun r => done (r.extractLsb' 0 30)

/-- A command and one pop for each, in order (R99, R101). -/
def popEach (p : Procedure) : List Instr → HostProc (List Byte)
  | [] => done []
  | i :: rest =>
    (cmd p i).andThen fun _ =>
    pop.andThen fun x =>
    (popEach p rest).andThen fun xs => done (x :: xs)

/-- `while STATUS.OQCNT > 0: pop()` (45_host_witness.md R107). A pass pops one entry and the queue holds at
most 31, so 32 passes are enough (log 17). -/
def drain : (fuel : Nat) → HostProc (List Byte)
  | 0 => fail .internal
  | fuel + 1 =>
    (memRead 0x08).andThen fun status =>
    if status.extractLsb' 16 5 = 0 then done []
    else pop.andThen fun x => (drain fuel).andThen fun xs => done (x :: xs)

/-- The passes a drain is given. -/
def drainFuel : Nat := 32

/-- A command and a drain for each, in order (45_host_witness.md R107, R108). -/
def drainEach (p : Procedure) : List Instr → HostProc (List Byte)
  | [] => done []
  | i :: rest =>
    (cmd p i).andThen fun _ =>
    (drain drainFuel).andThen fun xs =>
    (drainEach p rest).andThen fun ys => done (xs ++ ys)

/-! ## Encode (R99) -/

/-- `host_encode(hrp, data)` (44_host_codec.md R99). -/
def hostEncode (hrp : Str) (data : List Byte) : HostProc Str :=
  (require (decide (hrp ≠ [])) .hrpEmpty).andThen fun _ =>
  (cmd .encode .sysRst).andThen fun _ =>
  (cmds .encode (Pseudo.expand (.cmCases hrp))).andThen fun _ =>
  (require (decide (addressLength hrp data ≤ Config.addressMax)) .lengthTooLong).andThen fun _ =>
  (memRead 0x08).andThen fun status =>
  let up : Bool := status.extractLsb' 12 2 == 2
  (cmds .encode (Pseudo.expand (.ckHrp hrp))).andThen fun _ =>
  (cmds .encode (Pseudo.expand (.ckData data))).andThen fun _ =>
  (cmd .encode .ckFin).andThen fun _ =>
  readCkres.andThen fun r =>
  let symbols := data ++ ofSymbols (checksumSymbols r)
  (popEach .encode (symbols.map fun v => if up then .cmEncu v else .cmEnc v)).andThen fun body =>
  done (hrp ++ [separator] ++ body)

/-! ## Decode (R101) -/

/-- The part of `host_decode` after the split. -/
def hostDecodeParts (hrp rest : Str) : HostProc (Str × List Byte) :=
  (popEach .decode (Pseudo.expand (.cmDecs rest))).andThen fun syms =>
  (cmds .decode (Pseudo.expand (.ckHrp hrp))).andThen fun _ =>
  (cmds .decode (Pseudo.expand (.ckData syms))).andThen fun _ =>
  (cmd .decode .ckVer).andThen fun _ =>
  done (hrp, syms.take (syms.length - Config.checksumLen))

/-- `host_decode(s)` (44_host_codec.md R101). -/
def hostDecode (s : Str) : HostProc (Str × List Byte) :=
  (require (decide (Config.addressMin ≤ s.length)) .lengthTooShort).andThen fun _ =>
  (require (decide (s.length ≤ Config.addressMax)) .lengthTooLong).andThen fun _ =>
  (cmd .decode .sysRst).andThen fun _ =>
  (cmds .decode (Pseudo.expand (.cmCases s))).andThen fun _ =>
  match lastIndexOf separator s with
  | none => fail .missingSeparator
  | some p =>
    if p = 0 ∨ s.length - p - 1 < Config.checksumLen then fail .separatorPosition
    else hostDecodeParts (s.take p) (s.drop (p + 1))

/-! ## The witness layer (45_host_witness.md R107, R108) -/

/-- A conversion on the block: configure, push each value and drain, complete and drain. -/
def hostConvert (p : Procedure) (configuration : Pseudo) (data : List Byte) : HostProc (List Byte) :=
  (cmd p .sysRst).andThen fun _ =>
  (cmds p configuration.expand).andThen fun _ =>
  drainEach p (data.map .cvPush ++ [.cvFlush])

/-- `host_to_address(p)` (45_host_witness.md R107). A triple that `new` never validated is treated as `toAddress`
treats it (log 23). -/
def hostToAddress (table : NetworkTable) (w : WitnessProgram) : HostProc Str :=
  (hostConvert .encode .cvB2s w.program).andThen fun groups =>
  match table.hrpOf w.network with
  | none => fail .internal
  | some hrp => hostEncode hrp (versionSymbol w.version :: groups)

/-- A host computation with no access to the block. -/
def hostResult {α : Type} (r : Except HostError α) : HostProc α := fun s => (r, s)

/-- The part of `host_from_address` after the decoding. The drain after `CV.FLUSH` finds nothing, since a
completion without padding pushes nothing (43_converter.md R90). -/
def hostProgramOf (policy : Policy) (net : Network) : List Byte → HostProc WitnessProgram
  | [] => fail .emptyData
  | v :: groups =>
    (require (decide (v.toNat ≤ 16)) .versionTooLarge).andThen fun _ =>
    (hostConvert .decode .cvS2b groups).andThen fun prog =>
    hostResult (checkProgram policy ⟨v.toNat, prog, net⟩)

/-- `host_from_address(s)` (45_host_witness.md R108). -/
def hostFromAddress (table : NetworkTable) (policy : Policy) (s : Str) : HostProc WitnessProgram :=
  (hostDecode s).andThen fun decoded =>
  match table.networkOf decoded.1 with
  | none => fail .unknownHrp
  | some net => hostProgramOf policy net decoded.2

end Sys2Proof.Machine
end

