-- ==== Sys2Proof/Safety.lean ====
section
/-! DEFINITION. The terms the statements use: the invariants of the machine, what an error record explains,
which part of the state a unit owns, and how a command ends. -/

namespace Sys2Proof.Safety

open Sys2Proof.Machine

/-! ## Invariants -/

/-- What holds after reset and after every command (10_state.md R19, R23, R32; 43_converter.md R87), with the
ranges of the two parameters (00_scope.md R7) and of the widths (10_state.md R18). -/
abbrev Inv (s : State) : Prop :=
  (Config.oqDepthMin ≤ s.oqDepth ∧ s.oqDepth ≤ Config.oqDepthMax) ∧
  (1 ≤ s.fromW ∧ s.fromW ≤ 8) ∧
  (1 ≤ s.toW ∧ s.toW ≤ 8) ∧
  s.bits < s.toW ∧
  s.oq.length ≤ s.oqDepth ∧
  (s.err = .noError → s.errinfo = 0)

/-- The character is a letter of the other class than the tracked one (41_charset.md R65). -/
def mixesCase (s : State) (c : Byte) : Bool :=
  decide (caseClass c ≠ .none ∧ s.caseSeen ≠ .none ∧ caseClass c ≠ s.caseSeen)

/-- The cause that 60_exceptions.md R110 gives for each code, for a command that raises it: what its operand
and the units show. An overflow's cause goes as soon as the host pops an entry, so there it is only that the
command had passed its other checks. -/
def causeSeen (s : State) (e : ErrCode) (i : Instr) : Bool :=
  match i with
  | .nop | .sysRst | .sysClrerr | .cmClr | .ckInit | .ckFin | .cvCfg _ _ | .cvCfgp _ _ => false
  | .cmEnc v | .cmEncu v =>
    (e == .symRange && decide (31 < v.toNat)) || (e == .oqOverflow && decide (v.toNat ≤ 31))
  | .cmDec c =>
    (e == .ascii && !inBand c) ||
    (e == .mixedCase && inBand c && mixesCase s c) ||
    (e == .charset && inBand c && !mixesCase s c && (symOf c).isNone) ||
    (e == .oqOverflow && inBand c && !mixesCase s c && (symOf c).isSome)
  | .cmCase c => (e == .ascii && !inBand c) || (e == .mixedCase && inBand c && mixesCase s c)
  | .ckStep v => e == .symRange && decide (31 < v.toNat)
  | .ckHrph c | .ckHrpl c => e == .ascii && !inBand c
  | .ckVer => e == .checksum && !s.ckok && decide (s.chk ≠ 1)
  | .cvPush x =>
    (e == .convData && decide (2 ^ s.fromW ≤ x.toNat)) || (e == .oqOverflow && decide (x.toNat < 2 ^ s.fromW))
  | .cvFlush =>
    (e == .padExcess && s.pad && decide (0 < s.bits) && decide (s.fromW ≤ s.toW - s.bits)) ||
    (e == .padExcess && !s.pad && decide (s.fromW ≤ s.bits)) ||
    (e == .padNonzero && !s.pad && decide (s.bits < s.fromW) && decide (s.acc.toNat % 2 ^ s.bits ≠ 0)) ||
    (e == .oqOverflow && s.pad && decide (0 < s.bits))

/-- While `ERR` is not 0, `ERRINFO` is the value of a command that raises its code, and the cause can still
be seen; while it is 0, `ERRINFO` is 0 (60_exceptions.md R110, R111; 10_state.md R23). -/
def errorExplained (s : State) : Bool :=
  if s.err = .noError then s.errinfo == 0
  else
    match decode s.errinfo with
    | .illegal _ => s.err == .illegal
    | .command i => causeSeen s s.err i

/-! ## The parts of the state -/

/-- Nothing of the checksum generator differs. -/
abbrev SameChecksumUnit (s t : State) : Prop := t.chk = s.chk ∧ t.ckres = s.ckres ∧ t.ckok = s.ckok

/-- Nothing of the bit-group converter differs. -/
abbrev SameConverter (s t : State) : Prop :=
  t.fromW = s.fromW ∧ t.toW = s.toW ∧ t.pad = s.pad ∧ t.acc = s.acc ∧ t.bits = s.bits

/-- Nothing of the error record differs. -/
abbrev SameError (s t : State) : Prop := t.err = s.err ∧ t.errinfo = s.errinfo

/-- The parameters and the host's side of the bus do not differ. -/
abbrev SameSurroundings (s t : State) : Prop :=
  t.basePage = s.basePage ∧ t.oqDepth = s.oqDepth ∧ t.pending = s.pending ∧ t.replies = s.replies

/-! ## How a command ends -/

/-- The command raises the error: the code and the command's own `CMD` value are captured, and nothing else
changes (60_exceptions.md R111). -/
abbrev Raises (i : Instr) (s : State) (e : ErrCode) : Prop :=
  exec i s = .next { s with err := e, errinfo := encode i }

/-- The command is discarded whenever the block is locked (60_exceptions.md R112). -/
abbrev DiscardedUnderLock (i : Instr) : Prop := ∀ s : State, s.err ≠ .noError → exec i s = .next s

/-- Every value that has the command's `OP` and `FN` and a non-zero `D` raises `E_ILLEGAL` when the block is
not locked (30_encoding.md R50, form `none`). -/
abbrev IllegalWithOperand (i : Instr) : Prop :=
  ∀ (s : State) (d : Byte), s.err = .noError → d ≠ 0 →
    issue (encode i ||| d.setWidth 32) s =
      .next { s with err := .illegal, errinfo := encode i ||| d.setWidth 32 }

/-- Run commands one after another, as CMD writes with no access between them. A command always goes on
(`exec` answers no fault and no refusal), so a stop would leave the state as it is. -/
def runAll : List Instr → State → State
  | [], s => s
  | i :: rest, s =>
    match exec i s with
    | .next t => runAll rest t
    | .fault _ => s
    | .refused _ => s

/-- The events of which one is a write, at `CMD`, of a value that decodes to the command. -/
def isCommand (s : State) (e : BusEvent) (i : Instr) : Prop :=
  ∃ w, e = cmdWrite s w ∧ decode w = .command i

/-- The oldest access to be served is one of these: the reset line, `SYS.RST`, or a command the predicate
holds of. -/
def OldestResetsOr (s : State) (allowed : Instr → Prop) : Prop :=
  ∃ e rest, s.pending = e :: rest ∧
    (e = .reset ∨ ∃ i, isCommand s e i ∧ (i = .sysRst ∨ allowed i))

/-! ## Strings of symbols -/

/-- The number of places in which two strings of one length differ. -/
def differences (a b : List Symbol) : Nat := (a.zip b).countP fun p => p.1 != p.2

end Sys2Proof.Safety
end

