-- ==== Sys2Proof/Certificates/Slice0/Obligations.lean ====
section
/-! DEFINITION. The statements about the model, for the provers. Each says which rule of spec/ it formalises. -/

open Sys2Proof Sys2Proof.Machine Sys2Proof.Safety

/-! ## Encoding (30_encoding.md) -/

/-- R52 and R51 agree: decoding the value of a well-formed command gives it back, with every operand. -/
def Obligations.DecodeInvertsEncode : Prop :=
  ∀ i : Instr, i.wellFormed = true → decode (encode i) = .command i

/-- Every legal `CMD` value is the encoding of the one command it decodes to, and that command is
well formed (R52, R53): no two values mean one command, and no bit of a legal value is ignored. -/
def Obligations.EncodeInvertsDecode : Prop :=
  ∀ (w : Word) (i : Instr), decode w = .command i → i.wellFormed = true ∧ encode i = w

/-- R53: the illegal encodings are exactly the listed ones, and each raises `E_ILLEGAL` except under the
lock, where it is discarded. -/
def Obligations.IllegalEncodingsAreTheListedOnes : Prop :=
  ∀ w : Word,
    let high := w.toNat / 2 ^ 16
    let op := w.toNat / 2 ^ 12 % 2 ^ 4
    let fn := w.toNat / 2 ^ 8 % 2 ^ 4
    let d := w.toNat % 2 ^ 8
    ((∃ why, decode w = .illegal why) ↔
      high ≠ 0 ∨ 4 ≤ op ∨ (op = 0 ∧ 3 ≤ fn) ∨ (op = 1 ∧ 5 ≤ fn) ∨ (op = 2 ∧ 6 ≤ fn) ∨ (op = 3 ∧ 4 ≤ fn) ∨
      (((op = 0 ∧ fn ≤ 2) ∨ (op = 1 ∧ fn = 0) ∨ (op = 2 ∧ (fn = 0 ∨ fn = 4 ∨ fn = 5)) ∨ (op = 3 ∧ fn = 3)) ∧
        d ≠ 0) ∨
      (op = 3 ∧ fn ≤ 1 ∧ (d / 2 ^ 3 % 2 = 1 ∨ d / 2 ^ 7 % 2 = 1))) ∧
    ∀ (s : State) (why : Illegal), decode w = .illegal why →
      issue w s = if s.err = .noError then .next { s with err := .illegal, errinfo := w } else .next s

/-- R51's word column, one value of each row written out. -/
def Obligations.OpcodeMapWordsDecode : Prop :=
  decode 0x00000000 = .command .nop ∧ decode 0x00000100 = .command .sysRst ∧
  decode 0x00000200 = .command .sysClrerr ∧ decode 0x00001000 = .command .cmClr ∧
  decode 0x0000110F = .command (.cmEnc 15) ∧ decode 0x00001205 = .command (.cmEncu 5) ∧
  decode 0x00001351 = .command (.cmDec 0x51) ∧ decode 0x00001474 = .command (.cmCase 0x74) ∧
  decode 0x00002000 = .command .ckInit ∧ decode 0x00002128 = .command (.ckStep 40) ∧
  decode 0x00002274 = .command (.ckHrph 0x74) ∧ decode 0x00002361 = .command (.ckHrpl 0x61) ∧
  decode 0x00002400 = .command .ckFin ∧ decode 0x00002500 = .command .ckVer ∧
  decode 0x00003074 = .command (.cvCfg 5 8) ∧ decode 0x00003147 = .command (.cvCfgp 8 5) ∧
  decode 0x000032FF = .command (.cvPush 0xFF) ∧ decode 0x00003300 = .command .cvFlush

/-- R55: the assembler reads the line of a well-formed command back as that command alone. What the text of
a line looks like beyond R55 is the model's (log 18). -/
def Obligations.AssemblerReadsBackEveryCommand : Prop :=
  ∀ i : Instr, i.wellFormed = true → assembleLine (render i) = some [i]

/-! ## The step and the bus (10_state.md, 20_memory.md, 40_control.md) -/

/-- A step runs the decoded command: when the oldest access is a write of `w` to `CMD` and `w` decodes to
`i`, the step is `exec i` on the state without that access, with the bus's answer added; a value placed by
`withFetchWord` is that access. The lists of accesses and answers are the model's (log 1). -/
def Obligations.StepRunsTheDecodedCommand : Prop :=
  ∀ (s : State) (w : Word) (i : Instr) (rest : List BusEvent), decode w = .command i →
    (s.pending = .write 32 (s.baseAddr + 4) w :: rest →
      step s = answered .written (exec i { s with pending := rest })) ∧
    step (s.withFetchWord 32 w.toNat) = answered .written (exec i s)

/-- R57's cycle: the lock first, then decoding, then the command's rule, and `E_ILLEGAL` for what is no
command. -/
def Obligations.CommandWriteFollowsTheExecutionCycle : Prop :=
  ∀ (w : Word) (s : State),
    issue w s =
      if s.err ≠ .noError ∧ w ≠ 0x00000100 ∧ w ≠ 0x00000200 then .next s
      else
        match decode w with
        | .illegal _ => .next { s with err := .illegal, errinfo := w }
        | .command i => exec i s

/-- R40: a 32-bit read of the window answers the register's value; only `OQDATA` has a side effect, and any
other read, repeated, answers the same value and leaves the block as it was. -/
def Obligations.ReadsAnswerTheRegisterAndOnlyPopTheQueue : Prop :=
  ∀ (s : State) (off : Nat) (rest : List BusEvent), off < 256 → off % 4 = 0 →
    s.pending = .read 32 (s.baseAddr + off) :: rest →
    let value := registerValue (registerAt off) s
    (off ≠ 0x20 → step s = .next { s with pending := rest, replies := .data value :: s.replies }) ∧
    (off = 0x20 →
      step s = .next { s with pending := rest, replies := .data value :: s.replies, oq := s.oq.tail }) ∧
    (off ≠ 0x20 → ∀ more, rest = .read 32 (s.baseAddr + off) :: more →
      Host.Core.run core 2 s =
        .next { s with pending := more, replies := .data value :: .data value :: s.replies })

/-- R28: a read of `OQDATA` pops the head and answers it with bit 8 set; of an empty queue it answers 0 and
changes nothing; a write to it is ignored. -/
def Obligations.QueueReadPopsOneEntry : Prop :=
  ∀ (s : State) (v : Word),
    (∀ x xs, s.oq = x :: xs →
      serve (.read 32 (s.baseAddr + 0x20)) s =
        .next { s with oq := xs, replies := .data (BitVec.ofNat 32 (0x100 + x.toNat)) :: s.replies }) ∧
    (s.oq = [] →
      serve (.read 32 (s.baseAddr + 0x20)) s = .next { s with replies := .data 0 :: s.replies }) ∧
    serve (.write 32 (s.baseAddr + 0x20) v) s = .next { s with replies := .written :: s.replies }

/-- R41: a 32-bit write to `CMD` executes the command, and a write anywhere else in the window is ignored. -/
def Obligations.OnlyCommandWritesHaveAnEffect : Prop :=
  ∀ (s : State) (off : Nat) (v : Word) (rest : List BusEvent), off < 256 → off % 4 = 0 →
    s.pending = .write 32 (s.baseAddr + off) v :: rest →
    (off = 4 → step s = answered .written (issue v { s with pending := rest })) ∧
    (off ≠ 4 → step s = .next { s with pending := rest, replies := .written :: s.replies })

/-- R37's effect of an access of another width, or at an offset that is no multiple of 4: the bus's error
response and nothing else, no pop and no `ERR`. That the machine goes on, where R37 also says that a model
refuses the access, and that every width but 32 is treated alike, are the model's reading (log 4). -/
def Obligations.RefusedAccessesHaveNoEffect : Prop :=
  ∀ (s : State) (width off : Nat) (v : Word), off < 256 → width ≠ 32 ∨ off % 4 ≠ 0 →
    serve (.read width (s.baseAddr + off)) s = .next { s with replies := .busError :: s.replies } ∧
    serve (.write width (s.baseAddr + off) v) s = .next { s with replies := .busError :: s.replies }

/-- An access outside `BASE_ADDR .. BASE_ADDR + 0xFF` does not reach the block (R35); that the step then
stops with a fault is the model's choice (log 5), as is that a step with no access to serve leaves the
state as it is (log 6). -/
def Obligations.AccessOutsideTheWindowDoesNotReachTheBlock : Prop :=
  ∀ (s : State) (width addr : Nat) (v : Word),
    ((addr < s.baseAddr ∨ s.baseAddr + 0xFF < addr) →
      serve (.read width addr) s = .fault .outsideWindow ∧
      serve (.write width addr v) s = .fault .outsideWindow) ∧
    (s.pending = [] → step s = .next s)

/-! ## The registers (10_state.md) -/

/-- R22, R26, R27: the fields of `STATUS`, `CVCFG` and `CVSTATE`, with the reserved bits zero, and the numbers
that R110 gives the errors. -/
def Obligations.StatusAndConverterRegistersShowTheirFields : Prop :=
  ∀ s : State, Inv s →
    let v := registerValue (registerAt 0x08) s
    let c := registerValue (registerAt 0x18) s
    let b := registerValue (registerAt 0x1C) s
    ((v.extractLsb' 0 4).toNat =
        (match s.err with
          | .noError => 0 | .illegal => 1 | .symRange => 2 | .ascii => 3 | .mixedCase => 4 | .charset => 5
          | .convData => 6 | .padExcess => 7 | .padNonzero => 8 | .checksum => 9 | .oqOverflow => 10) ∧
      v.extractLsb' 4 4 = 0 ∧ v.getLsbD 8 = s.ckok ∧ v.extractLsb' 9 3 = 0 ∧
      (v.extractLsb' 12 2).toNat = (match s.caseSeen with | .none => 0 | .lower => 1 | .upper => 2) ∧
      v.extractLsb' 14 2 = 0 ∧ (v.extractLsb' 16 5).toNat = s.oq.length ∧ v.extractLsb' 21 11 = 0) ∧
    ((c.extractLsb' 0 3).toNat + 1 = s.fromW ∧ c.getLsbD 3 = false ∧
      (c.extractLsb' 4 3).toNat + 1 = s.toW ∧ c.getLsbD 7 = false ∧ c.getLsbD 8 = s.pad ∧
      c.extractLsb' 9 23 = 0) ∧
    (b.extractLsb' 0 16 = s.acc ∧ (b.extractLsb' 16 4).toNat = s.bits ∧ b.extractLsb' 20 12 = 0)

/-- R20, R21, R23, R24, R25, R29, R30: the values of the other registers, read at their offsets. -/
def Obligations.OtherRegistersShowTheirValues : Prop :=
  ∀ (s : State) (off : Nat), Inv s →
    let at_ := fun o => (registerValue (registerAt o) s).toNat
    at_ 0x00 = 0x42333201 ∧ at_ 0x04 = 0 ∧ at_ 0x0C = s.errinfo.toNat ∧ at_ 0x10 = s.chk.toNat ∧
    at_ 0x14 = s.ckres.toNat ∧ at_ 0x24 = s.oqDepth ∧ (0x28 ≤ off → at_ off = 0) ∧
    ∀ k, k < 6 → (checksumSymbol s.ckres k).toNat = at_ 0x14 / 2 ^ (25 - 5 * k) % 2 ^ 5

/-! ## Reset (70_reset_and_hazards.md R123, 10_state.md R34) -/

/-- R61 and R34: `SYS.RST` gives every piece of the block's state its reset value, from any state, under the
lock too, and changes nothing else. The exact value `0x00000100` is required: `0x00010100` is illegal, and
under the lock discarded. -/
def Obligations.SoftResetGivesEveryStateItsValue : Prop :=
  (∀ s : State,
    exec .sysRst s = .next
      { s with
        chk := 0x00000001, ckres := 0, ckok := false, caseSeen := .none, fromW := 8, toW := 5, pad := true
        acc := 0, bits := 0, oq := [], err := .noError, errinfo := 0 }) ∧
  IllegalWithOperand .sysRst ∧ decode 0x00010100 = .illegal .highHalf ∧
  ∀ s : State, s.err ≠ .noError → issue 0x00010100 s = .next s

/-- R123: in every state hardware reset goes on, with the effect of `SYS.RST`: every piece of the block's state
is at its reset value, the parameters do not change, and the registers read as listed. -/
def Obligations.RegistersAfterReset : Prop :=
  ∀ s : State, serve .reset s = exec .sysRst s ∧
    ∃ t, serve .reset s = .next t ∧
    t =
      { s with
        chk := 0x00000001, ckres := 0, ckok := false, caseSeen := .none, fromW := 8, toW := 5, pad := true
        acc := 0, bits := 0, oq := [], err := .noError, errinfo := 0 } ∧
    t.basePage = s.basePage ∧ t.oqDepth = s.oqDepth ∧
    registerValue .id t = 0x42333201 ∧ registerValue .status t = 0 ∧ registerValue .errinfo t = 0 ∧
    registerValue .chk t = 1 ∧ registerValue .ckres t = 0 ∧ registerValue .cvcfg t = 0x147 ∧
    registerValue .cvstate t = 0 ∧ registerValue .oqdata t = 0 ∧
    registerValue .param t = BitVec.ofNat 32 (s.oqDepth % 32)

/-- The machine's own state after reset meets both invariants. -/
def Obligations.ResetStateMeetsTheInvariants : Prop :=
  Inv State.reset ∧ errorExplained State.reset = true

/-! ## Invariants and whole-machine rules -/

/-- R19: from any state that meets it, every step keeps `BITS < TO`, `len(OQ) <= OQ_DEPTH`, the ranges of the
widths, and `ERRINFO = 0` while `ERR = 0` (R23). -/
def Obligations.EveryStepKeepsTheInvariant : Prop :=
  ∀ s t : State, Inv s → step s = .next t → Inv t

/-- From any state that meets the invariant and in which the error record is explained (R110), every step leaves one in which it is:
`ERRINFO` always names a command that raises `ERR`'s code, and its cause can still be seen. -/
def Obligations.EveryStepKeepsTheErrorExplained : Prop :=
  ∀ s t : State, Inv s → errorExplained s = true → step s = .next t → errorExplained t = true

/-- R115: the first error is never overwritten; a step keeps the record or clears it. -/
def Obligations.FirstErrorIsNeverOverwritten : Prop :=
  ∀ s t : State, s.err ≠ .noError → step s = .next t →
    (t.err = s.err ∧ t.errinfo = s.errinfo) ∨ (t.err = .noError ∧ t.errinfo = 0)

/-- R24: only `CK.INIT`, `CK.STEP`, `CK.HRPH`, `CK.HRPL`, `SYS.RST` and hardware reset change `CHK`. -/
def Obligations.OnlyTheListedCommandsWriteChk : Prop :=
  ∀ s t : State, step s = .next t → t.chk ≠ s.chk →
    OldestResetsOr s fun i => i = .ckInit ∨ ∃ d, i = .ckStep d ∨ i = .ckHrph d ∨ i = .ckHrpl d

/-- R31: `CKOK` changes only by `CK.VER` and reset, `CASE` only by `CM.DEC`, `CM.CASE`, `CM.CLR` and reset,
and `ERR` is cleared only by reset, `SYS.RST` and `SYS.CLRERR`. -/
def Obligations.OnlyTheListedCommandsWriteTheFlags : Prop :=
  ∀ s t : State, step s = .next t →
    (t.ckok ≠ s.ckok → OldestResetsOr s fun i => i = .ckVer) ∧
    (t.caseSeen ≠ s.caseSeen →
      OldestResetsOr s fun i => i = .cmClr ∨ ∃ c, i = .cmDec c ∨ i = .cmCase c) ∧
    (s.err ≠ .noError → t.err = .noError → OldestResetsOr s fun i => i = .sysClrerr)

/-- R26, R125: the configuration changes only by `CV.CFG`, `CV.CFGP` and reset, `CKRES` only by `CK.FIN` and
reset, and no step changes a parameter (R123). -/
def Obligations.OnlyTheListedCommandsWriteConfigurationAndResult : Prop :=
  ∀ s t : State, step s = .next t →
    ((t.fromW, t.toW, t.pad) ≠ (s.fromW, s.toW, s.pad) →
      OldestResetsOr s fun i => ∃ f w, i = .cvCfg f w ∨ i = .cvCfgp f w) ∧
    (t.ckres ≠ s.ckres → OldestResetsOr s fun i => i = .ckFin) ∧
    t.basePage = s.basePage ∧ t.oqDepth = s.oqDepth

/-- R32: entries leave the queue only by a read of `OQDATA`, from the head, and by reset; every other step
keeps what is queued, in order, and may add at the tail. -/
def Obligations.QueueIsFirstInFirstOut : Prop :=
  ∀ s t : State, step s = .next t →
    (∃ outs, t.oq = s.oq ++ outs) ∨
    (∃ rest, s.pending = .read 32 (s.baseAddr + 0x20) :: rest ∧ t.oq = s.oq.tail) ∨
    (t.oq = [] ∧ OldestResetsOr s fun _ => False)

/-- R12 and R111: from an unlocked state a command either commits with no error, or captures one error code
and its own `CMD` value with no other effect, but for the `CKOK <- 0` of a failing `CK.VER`. -/
def Obligations.CommandsCommitOrCapture : Prop :=
  ∀ (i : Instr) (s : State), s.err = .noError →
    ∃ t, exec i s = .next t ∧
      (t.err = .noError ∨
        ∃ e, e ≠ .noError ∧
          (t = { s with err := e, errinfo := encode i } ∨
            (i = .ckVer ∧ e = .checksum ∧ t = { s with ckok := false, err := e, errinfo := encode i })))

/-- R112: while locked, every `CMD` value but exactly the two recovery commands is discarded with no effect;
the two, and register reads, work as they do without the lock. -/
def Obligations.LockDiscardsEveryOtherCommand : Prop :=
  ∀ (s : State), s.err ≠ .noError →
    (∀ w : Word, w ≠ 0x00000100 → w ≠ 0x00000200 → issue w s = .next s) ∧
    issue 0x00000100 s = .next s.resetBlock ∧
    issue 0x00000200 s = .next { s with err := .noError, errinfo := 0 } ∧
    (∀ off, off < 256 → off % 4 = 0 →
      serve (.read 32 (s.baseAddr + off)) s =
        .next { afterRead (registerAt off) s with
                replies := .data (registerValue (registerAt off) s) :: s.replies }) ∧
    (∀ x xs, s.oq = x :: xs → (afterRead .oqdata s).oq = xs)

/-- R114, R62: `SYS.CLRERR` after a command that erred gives the units back exactly as they were before it,
for every command but `CK.VER`. -/
def Obligations.RecoveryKeepsTheUnits : Prop :=
  ∀ (i : Instr) (s t : State), Inv s → s.err = .noError → i ≠ .ckVer →
    exec i s = .next t → t.err ≠ .noError → exec .sysClrerr t = .next s

/-- Frame of the checksum generator's commands: `CASE`, the converter, the queue and the surroundings stay;
`CKRES` changes only by `CK.FIN`, `CKOK` only by `CK.VER`, `CHK` not by these two. -/
def Obligations.ChecksumCommandsFrame : Prop :=
  ∀ (i : Instr) (s t : State),
    (i = .ckInit ∨ i = .ckFin ∨ i = .ckVer ∨ ∃ d, i = .ckStep d ∨ i = .ckHrph d ∨ i = .ckHrpl d) →
    exec i s = .next t →
    t.caseSeen = s.caseSeen ∧ SameConverter s t ∧ t.oq = s.oq ∧ SameSurroundings s t ∧
    (i ≠ .ckFin → t.ckres = s.ckres) ∧ (i ≠ .ckVer → t.ckok = s.ckok) ∧
    (i = .ckFin ∨ i = .ckVer → t.chk = s.chk)

/-- Frame of the charset mapper's commands: the checksum generator, the converter and the surroundings stay;
`CASE` changes only by `CM.CLR`, `CM.DEC` and `CM.CASE`, the queue only by one entry at the tail and only by
`CM.ENC`, `CM.ENCU` and `CM.DEC`. -/
def Obligations.CharsetCommandsFrame : Prop :=
  ∀ (i : Instr) (s t : State),
    (i = .cmClr ∨ ∃ d, i = .cmEnc d ∨ i = .cmEncu d ∨ i = .cmDec d ∨ i = .cmCase d) →
    exec i s = .next t →
    SameChecksumUnit s t ∧ SameConverter s t ∧ SameSurroundings s t ∧
    (t.oq = s.oq ∨ ∃ x, t.oq = s.oq ++ [x]) ∧
    ((i = .cmClr ∨ ∃ d, i = .cmCase d) → t.oq = s.oq) ∧
    ((∃ d, i = .cmEnc d ∨ i = .cmEncu d) → t.caseSeen = s.caseSeen)

/-- Frame of the converter's commands: the checksum generator, `CASE` and the surroundings stay; the
configuration changes only by `CV.CFG` and `CV.CFGP`, which leave the queue alone. -/
def Obligations.ConverterCommandsFrame : Prop :=
  ∀ (i : Instr) (s t : State),
    (i = .cvFlush ∨ (∃ x, i = .cvPush x) ∨ ∃ f w, i = .cvCfg f w ∨ i = .cvCfgp f w) →
    exec i s = .next t →
    SameChecksumUnit s t ∧ t.caseSeen = s.caseSeen ∧ SameSurroundings s t ∧
    (∃ outs, t.oq = s.oq ++ outs) ∧
    ((i = .cvFlush ∨ ∃ x, i = .cvPush x) → t.fromW = s.fromW ∧ t.toW = s.toW ∧ t.pad = s.pad) ∧
    ((∃ f w, i = .cvCfg f w ∨ i = .cvCfgp f w) → t.oq = s.oq)

/-! ## System commands (40_control.md) -/

/-- R60 and R62: `NOP` changes nothing, locked or not; `SYS.CLRERR` clears the record and nothing else, and
executes under the lock. A non-zero `D` is an illegal encoding. -/
def Obligations.NopAndClearError : Prop :=
  (∀ s : State, exec .nop s = .next s) ∧
  (∀ s : State, exec .sysClrerr s = .next { s with err := .noError, errinfo := 0 }) ∧
  IllegalWithOperand .nop ∧ IllegalWithOperand .sysClrerr

/-! ## Charset mapper (41_charset.md) -/

/-- R63, R64: the alphabet, its 32 distinct characters, and the inverse map on both cases of each, defined
nowhere else. -/
def Obligations.AlphabetAndItsInverse : Prop :=
  charset = ascii "qpzry9x8gf2tvdw0s3jn54khce6mua7l" ∧ charset.length = 32 ∧ charset.Nodup ∧
  (∀ v : Symbol, charset[v.toNat]? = some (charOf v)) ∧
  (∀ v : Symbol, symOf (charOf v) = some v ∧ symOf (upper (charOf v)) = some v) ∧
  (∀ (c : Byte) (v : Symbol), symOf c = some v ↔ lower c = charOf v) ∧
  (∀ c ∈ ascii "1bioBIO", symOf c = none)

/-- R67, R68: `CM.ENC` and `CM.ENCU` push the symbol's character, in lower and in upper case; a value above
31 raises `E_SYMRANGE` first, a full queue `E_OQ_OVERFLOW`. -/
def Obligations.SymbolIsMappedToItsCharacter : Prop :=
  ∀ (v : Byte) (s : State), s.err = .noError →
    (v.toNat ≤ 31 → s.oq.length + 1 ≤ s.oqDepth →
      exec (.cmEnc v) s = .next { s with oq := s.oq ++ [charset.getD v.toNat 0] } ∧
      exec (.cmEncu v) s = .next { s with oq := s.oq ++ [upper (charset.getD v.toNat 0)] }) ∧
    (31 < v.toNat → Raises (.cmEnc v) s .symRange ∧ Raises (.cmEncu v) s .symRange) ∧
    (v.toNat ≤ 31 → s.oqDepth < s.oq.length + 1 →
      Raises (.cmEnc v) s .oqOverflow ∧ Raises (.cmEncu v) s .oqOverflow) ∧
    DiscardedUnderLock (.cmEnc v) ∧ DiscardedUnderLock (.cmEncu v)

/-- R69: `CM.DEC` pushes the character's symbol and tracks a letter's case; the four errors come in the
order band, case, alphabet, capacity, and an error changes no `CASE`. -/
def Obligations.CharacterIsMappedToItsSymbol : Prop :=
  ∀ (c : Byte) (s : State), s.err = .noError →
    (¬(33 ≤ c.toNat ∧ c.toNat ≤ 126) → Raises (.cmDec c) s .ascii) ∧
    (33 ≤ c.toNat → c.toNat ≤ 126 →
      (mixesCase s c = true → Raises (.cmDec c) s .mixedCase) ∧
      (mixesCase s c = false →
        (symOf c = none → Raises (.cmDec c) s .charset) ∧
        (∀ v, symOf c = some v →
          (s.oqDepth < s.oq.length + 1 → Raises (.cmDec c) s .oqOverflow) ∧
          (s.oq.length + 1 ≤ s.oqDepth →
            exec (.cmDec c) s = .next
              { s with
                oq := s.oq ++ [BitVec.ofNat 8 v.toNat]
                caseSeen := if caseClass c = .none then s.caseSeen else caseClass c })))) ∧
    DiscardedUnderLock (.cmDec c)

/-- R66 and R70: `CM.CLR` sets `CASE` to `NONE`; `CM.CASE` accepts any in-band character, tracks a letter's
case and pushes nothing, band before case. -/
def Obligations.CaseIsClearedAndCheckedWithoutMapping : Prop :=
  ((∀ s : State, s.err = .noError → exec .cmClr s = .next { s with caseSeen := .none }) ∧
    DiscardedUnderLock .cmClr ∧ IllegalWithOperand .cmClr) ∧
  ∀ (c : Byte) (s : State), s.err = .noError →
    (¬(33 ≤ c.toNat ∧ c.toNat ≤ 126) → Raises (.cmCase c) s .ascii) ∧
    (33 ≤ c.toNat → c.toNat ≤ 126 →
      (mixesCase s c = true → Raises (.cmCase c) s .mixedCase) ∧
      (mixesCase s c = false →
        exec (.cmCase c) s =
          .next { s with caseSeen := if caseClass c = .none then s.caseSeen else caseClass c })) ∧
    DiscardedUnderLock (.cmCase c)

/-! ## Checksum generator (42_checksum.md) -/

/-- R72: the accumulator's step, bit by bit: the low 25 bits move up five places over the symbol, and each
set bit among the five that leave adds its constant. -/
def Obligations.ChecksumStepBitByBit : Prop :=
  ∀ (c : Checksum) (v : Symbol) (k : Nat), k < 30 →
    (stepChk c v).getLsbD k =
      ((if k < 5 then v.getLsbD k else c.getLsbD (k - 5)) ^^
        (c.getLsbD 25 && (0x3b6a57b2 : Checksum).getLsbD k) ^^
        (c.getLsbD 26 && (0x26508e6d : Checksum).getLsbD k) ^^
        (c.getLsbD 27 && (0x1ea119fa : Checksum).getLsbD k) ^^
        (c.getLsbD 28 && (0x3d4233dd : Checksum).getLsbD k) ^^
        (c.getLsbD 29 && (0x2a1462b3 : Checksum).getLsbD k))

/-- R78: `CK.STEP` folds a symbol into `CHK`; a value above 31 raises `E_SYMRANGE` and is never truncated. -/
def Obligations.SymbolIsFolded : Prop :=
  ∀ (v : Byte) (s : State), s.err = .noError →
    (v.toNat ≤ 31 → exec (.ckStep v) s = .next { s with chk := stepChk s.chk (BitVec.ofNat 5 v.toNat) }) ∧
    (31 < v.toNat → Raises (.ckStep v) s .symRange) ∧ DiscardedUnderLock (.ckStep v)

/-- R79, R80: `CK.HRPH` folds the high three bits of the lowercase character and `CK.HRPL` its low five; a
character outside the band raises `E_ASCII`. -/
def Obligations.HrpCharacterIsFolded : Prop :=
  ∀ (c : Byte) (s : State), s.err = .noError →
    (33 ≤ c.toNat → c.toNat ≤ 126 →
      exec (.ckHrph c) s =
        .next { s with chk := stepChk s.chk (BitVec.ofNat 5 ((lower c).toNat / 32)) } ∧
      exec (.ckHrpl c) s =
        .next { s with chk := stepChk s.chk (BitVec.ofNat 5 ((lower c).toNat % 32)) }) ∧
    (¬(33 ≤ c.toNat ∧ c.toNat ≤ 126) → Raises (.ckHrph c) s .ascii ∧ Raises (.ckHrpl c) s .ascii) ∧
    DiscardedUnderLock (.ckHrph c) ∧ DiscardedUnderLock (.ckHrpl c)

/-- R77 and R81: `CK.INIT` sets `CHK` to 1; `CK.FIN` writes `CKRES` from six zero steps on a copy of `CHK`,
which stays. Neither changes anything else. -/
def Obligations.ChecksumIsInitialisedAndFinished : Prop :=
  ((∀ s : State, s.err = .noError → exec .ckInit s = .next { s with chk := 0x00000001 }) ∧
    DiscardedUnderLock .ckInit ∧ IllegalWithOperand .ckInit) ∧
  (∀ s : State, s.err = .noError →
    exec .ckFin s = .next
      { s with
        ckres :=
          stepChk (stepChk (stepChk (stepChk (stepChk (stepChk s.chk 0) 0) 0) 0) 0) 0 ^^^ 0x00000001 }) ∧
  DiscardedUnderLock .ckFin ∧ IllegalWithOperand .ckFin

/-- R82: `CK.VER` sets `CKOK` when `CHK` is 1, and otherwise clears it and raises `E_CHECKSUM`; `CHK` stays. -/
def Obligations.ChecksumIsVerified : Prop :=
  (∀ s : State, s.err = .noError →
    (s.chk = 0x00000001 → exec .ckVer s = .next { s with ckok := true }) ∧
    (s.chk ≠ 0x00000001 →
      exec .ckVer s = .next { s with ckok := false, err := .checksum, errinfo := 0x00002500 })) ∧
  DiscardedUnderLock .ckVer ∧ IllegalWithOperand .ckVer

/-- R83: six symbols after `p` differ from six zeros by the XOR of the symbols packed most significant
first; so the symbols of `t XOR K` verify to exactly `K`. -/
def Obligations.LastSixSymbolsEnterByXor : Prop :=
  (∀ p K : Checksum,
    stepAll p (checksumSymbols (stepAll p [0, 0, 0, 0, 0, 0] ^^^ K)) = K) ∧
  ∀ (p : Checksum) (s0 s1 s2 s3 s4 s5 : Symbol),
    stepAll p [s0, s1, s2, s3, s4, s5] =
      stepAll p [0, 0, 0, 0, 0, 0] ^^^ (s0 ++ s1 ++ s2 ++ s3 ++ s4 ++ s5 : BitVec 30)

/-- R84: `step` is linear over GF(2) in both arguments together, and so is its iteration. -/
def Obligations.ChecksumStepIsLinear : Prop :=
  (∀ (c1 c2 : Checksum) (v1 v2 : Symbol),
    stepChk (c1 ^^^ c2) (v1 ^^^ v2) = stepChk c1 v1 ^^^ stepChk c2 v2) ∧
  ∀ a e : List Symbol, a.length = e.length →
    polymod (a.zipWith (· ^^^ ·) e) = polymod a ^^^ stepAll 0 e

/-- R85, for strings of at most 90 symbols (N6 asks for a length): one or two substitutions, a burst of up to
four consecutive errors, and a swap of adjacent symbols always change the accumulator. -/
def Obligations.ChecksumDetectsErrors : Prop :=
  (∀ a b : List Symbol, a.length = b.length → a.length ≤ 90 →
    (differences a b = 1 ∨ differences a b = 2) → polymod a ≠ polymod b) ∧
  (∀ pre e1 e2 post : List Symbol, (pre ++ e1 ++ post).length ≤ 90 → e1.length = e2.length →
    e1.length ≤ 4 → e1 ≠ e2 → polymod (pre ++ e1 ++ post) ≠ polymod (pre ++ e2 ++ post)) ∧
  (∀ (pre post : List Symbol) (x y : Symbol), (pre ++ [x, y] ++ post).length ≤ 90 → x ≠ y →
    polymod (pre ++ [x, y] ++ post) ≠ polymod (pre ++ [y, x] ++ post))

/-- R75, R81, R76: on the block, from any unlocked state, `CK.INIT`, the HRP's expansion (R56, R74), the data
and `CK.FIN` leave `create(h, ds)` in `CKRES`; folding its six symbols then makes `CK.VER` pass. -/
def Obligations.CreatedChecksumVerifiesOnTheBlock : Prop :=
  ∀ (s : State) (h : Str) (ds : List Symbol), s.err = .noError → h.all inBand = true →
    let t := runAll (.ckInit :: Pseudo.expand (.ckHrp h) ++ Pseudo.expand (.ckData (ofSymbols ds)) ++ [.ckFin]) s
    let u := runAll (Pseudo.expand (.ckData (ofSymbols (checksumSymbols t.ckres))) ++ [.ckVer]) t
    t.ckres = createChecksum h ds ∧ t.err = .noError ∧ u.chk = 1 ∧ u.ckok = true ∧ u.err = .noError

/-! ## Bit-group converter (43_converter.md) -/

/-- R88: `CV.CFG` and `CV.CFGP` set the widths and the padding mode, clear the buffer and keep the queue;
with `D[3]` or `D[7]` set the encoding is illegal. -/
def Obligations.ConverterIsConfigured : Prop :=
  ∀ f t : Nat, widthOk f = true → widthOk t = true →
    (∀ s : State, s.err = .noError →
      exec (.cvCfg f t) s = .next { s with fromW := f, toW := t, pad := false, acc := 0, bits := 0 } ∧
      exec (.cvCfgp f t) s = .next { s with fromW := f, toW := t, pad := true, acc := 0, bits := 0 }) ∧
    DiscardedUnderLock (.cvCfg f t) ∧ DiscardedUnderLock (.cvCfgp f t) ∧
    ∀ (s : State) (d : Byte), s.err = .noError → d.getLsbD 3 = true ∨ d.getLsbD 7 = true →
      ∀ w, w = (0x3000 : Word) ||| d.setWidth 32 ∨ w = (0x3100 : Word) ||| d.setWidth 32 →
        issue w s = .next { s with err := .illegal, errinfo := w }

/-- R89: `CV.PUSH` takes a value below `2^FROM` into the buffer and pushes `floor((BITS + FROM) / TO)` groups,
oldest bits first, keeping the rest; too large a value raises `E_CONV_DATA`, too full a queue
`E_OQ_OVERFLOW`, and either leaves buffer and queue alone. -/
def Obligations.InputGroupIsAccepted : Prop :=
  ∀ (x : Byte) (s : State), Inv s → s.err = .noError →
    let a := (s.acc.toNat * 2 ^ s.fromW + x.toNat) % 2 ^ 16
    let b := s.bits + s.fromW
    let outs := (List.range (b / s.toW)).map fun k =>
      BitVec.ofNat 8 (a / 2 ^ (b - (k + 1) * s.toW) % 2 ^ s.toW)
    (2 ^ s.fromW ≤ x.toNat → Raises (.cvPush x) s .convData) ∧
    (x.toNat < 2 ^ s.fromW → s.oqDepth < s.oq.length + b / s.toW → Raises (.cvPush x) s .oqOverflow) ∧
    (x.toNat < 2 ^ s.fromW → s.oq.length + b / s.toW ≤ s.oqDepth →
      exec (.cvPush x) s =
        .next { s with oq := s.oq ++ outs, acc := BitVec.ofNat 16 a, bits := b % s.toW }) ∧
    DiscardedUnderLock (.cvPush x)

/-- R90: `CV.FLUSH` with padding pushes the leftover bits above zeros, if there are any and the padding is
below `FROM` bits; without padding it succeeds when fewer than `FROM` zero bits are left; a success clears
the buffer, and an error leaves it. -/
def Obligations.ConversionIsCompleted : Prop :=
  (∀ s : State, Inv s → s.err = .noError →
    (s.bits = 0 → exec .cvFlush s = .next { s with acc := 0, bits := 0 }) ∧
    (0 < s.bits → s.pad = true →
      (s.fromW ≤ s.toW - s.bits → Raises .cvFlush s .padExcess) ∧
      (s.toW - s.bits < s.fromW →
        (s.oqDepth < s.oq.length + 1 → Raises .cvFlush s .oqOverflow) ∧
        (s.oq.length + 1 ≤ s.oqDepth →
          exec .cvFlush s = .next
            { s with
              oq := s.oq ++ [BitVec.ofNat 8 (s.acc.toNat % 2 ^ s.bits * 2 ^ (s.toW - s.bits))]
              acc := 0, bits := 0 }))) ∧
    (0 < s.bits → s.pad = false →
      (s.fromW ≤ s.bits → Raises .cvFlush s .padExcess) ∧
      (s.bits < s.fromW →
        (s.acc.toNat % 2 ^ s.bits ≠ 0 → Raises .cvFlush s .padNonzero) ∧
        (s.acc.toNat % 2 ^ s.bits = 0 → exec .cvFlush s = .next { s with acc := 0, bits := 0 })))) ∧
  DiscardedUnderLock .cvFlush ∧ IllegalWithOperand .cvFlush

/-- R91: configure, push every value, complete: with room in the queue the block pushes exactly
`convert_bits` of the values, and where that fails the block raises the same error. -/
def Obligations.BlockConversionIsConvertBits : Prop :=
  ∀ (s : State) (f t : Nat) (pad : Bool) (data : List Byte),
    Inv s → s.err = .noError → widthOk f = true → widthOk t = true →
    let configuration : Instr := if pad then .cvCfgp f t else .cvCfg f t
    let u := runAll (configuration :: data.map .cvPush ++ [.cvFlush]) s
    (∀ out, convertBits data f t pad = .ok out → s.oq.length + out.length ≤ s.oqDepth →
      u.oq = s.oq ++ out ∧ u.err = .noError) ∧
    (∀ e, convertBits data f t pad = .error e → s.oq.length + f * data.length / t ≤ s.oqDepth →
      u.err = e)

/-- R92: from bytes to symbols with padding the conversion never fails, yields `ceil(8n/5)` symbols, each
below 32, and their bits are the bytes' bits followed by zeros. -/
def Obligations.BytesToSymbolsNeverFails : Prop :=
  ∀ bytes : List Byte, ∃ out, convertBits bytes 8 5 true = .ok out ∧
    out.length = (8 * bytes.length + 4) / 5 ∧ (∀ x ∈ out, x.toNat < 32) ∧
    bitString 5 out = bitString 8 bytes * 2 ^ (5 * out.length - 8 * bytes.length)

/-- R93: from symbols to bytes without padding the conversion yields `floor(5m/8)` bytes, succeeds exactly
when fewer than five bits are left and they are zero, and undoes the conversion of R92. -/
def Obligations.SymbolsToBytesUndoesBytesToSymbols : Prop :=
  (∀ syms : List Byte, (∀ x ∈ syms, x.toNat < 32) →
    ((∃ out, convertBits syms 5 8 false = .ok out) ↔
      5 * syms.length % 8 < 5 ∧ bitString 5 syms % 2 ^ (5 * syms.length % 8) = 0) ∧
    ∀ out, convertBits syms 5 8 false = .ok out → out.length = 5 * syms.length / 8) ∧
  ∀ bytes out : List Byte, convertBits bytes 8 5 true = .ok out → convertBits out 5 8 false = .ok bytes

/-! ## The host's procedures (44_host_codec.md, 45_host_witness.md) -/

/-- R99: from every state of the block that meets the invariant, the procedure on the block gives exactly
`encode(hrp, data)`, or the same error. -/
def Obligations.HostEncodeOnTheBlockIsEncode : Prop :=
  ∀ (s : State) (hrp : Str) (data : List Byte), Inv s →
    (hostEncode hrp data s).1 = encodeString hrp data

/-- R101: likewise for `decode(s)`. -/
def Obligations.HostDecodeOnTheBlockIsDecode : Prop :=
  ∀ (s : State) (text : Str), Inv s → (hostDecode text s).1 = decodeString text

/-- R107 and R108 on the block: likewise for `to_address` and `from_address`, for every table and policy. -/
def Obligations.HostWitnessLayerOnTheBlock : Prop :=
  ∀ (s : State) (table : NetworkTable) (policy : Policy) (w : WitnessProgram) (text : Str), Inv s →
    (hostToAddress table w s).1 = toAddress table w ∧
    (hostFromAddress table policy text s).1 = fromAddress table policy text

/-- R102 item 1: decoding what encoding gives returns the HRP and the data. -/
def Obligations.DecodeUndoesEncodeOfStrings : Prop :=
  ∀ (hrp s : Str) (data : List Byte), encodeString hrp data = .ok s → decodeString s = .ok (hrp, data)

/-- R102 items 3 and 4, item 3 as 90_conflicts.md C4 reads it: the uppercase and the lowercase form of a valid
address decode to the same data, with the HRP in that case; a string with letters of both cases is rejected;
so is one of fewer than 8 or more than 90 characters, and every length from 8 to 90 has an address that
decodes. -/
def Obligations.UppercaseFormDecodesAlike : Prop :=
  (∀ (s hrp : Str) (data : List Byte), decodeString s = .ok (hrp, data) →
    decodeString (s.map upper) = .ok (hrp.map upper, data) ∧
    decodeString (s.map lower) = .ok (hrp.map lower, data)) ∧
  (∀ s : Str, s.any isUpperLetter = true → s.any isLowerLetter = true → ∃ e, decodeString s = .error e) ∧
  (∀ s : Str,
    (s.length < 8 → decodeString s = .error .lengthTooShort) ∧
    (90 < s.length → decodeString s = .error .lengthTooLong)) ∧
  ∀ n, 8 ≤ n → n ≤ 90 → ∃ s, s.length = n ∧ ∃ hrp data, decodeString s = .ok (hrp, data)

/-- R102 item 2 where it holds: in a valid address, a character other than the separator replaced by one that
is not the same letter in the other case, and in the data part not by the separator's character, makes
decoding fail. -/
def Obligations.OneCharacterChangeIsRejected : Prop :=
  ∀ (s hrp : Str) (data : List Byte) (k : Nat) (old new : Byte),
    decodeString s = .ok (hrp, data) → s[k]? = some old → k ≠ hrp.length → lower new ≠ lower old →
    (hrp.length < k → new ≠ separator) →
    ∃ e, decodeString (s.set k new) = .error e

/-- R102 item 2 as it is worded, for every other character. It fails: in `a19267542334` the only letter's
case can be changed (log 21). -/
def Obligations.EveryOneCharacterChangeIsRejected : Prop :=
  ∀ (s hrp : Str) (data : List Byte) (k : Nat) (old new : Byte),
    decodeString s = .ok (hrp, data) → s[k]? = some old → k ≠ hrp.length → new ≠ old →
    ∃ e, decodeString (s.set k new) = .error e

/-- R96, R97, R98: `encode` succeeds exactly for a valid HRP, symbols 0 to 31 and a total length of at most
90, and then gives the HRP, the separator and the data and checksum characters in the HRP's case, of a
length from 8 to 90. -/
def Obligations.EncodeSucceedsExactlyOnValidInput : Prop :=
  ∀ (hrp : Str) (data : List Byte),
    ((∃ s, encodeString hrp data = .ok s) ↔
      validHrp hrp = true ∧ (∀ v ∈ data, v.toNat ≤ 31) ∧ hrp.length + 1 + data.length + 6 ≤ 90) ∧
    ∀ s, encodeString hrp data = .ok s →
      8 ≤ s.length ∧ s.length ≤ 90 ∧
      ∃ body, s = hrp ++ [0x31] ++ body ∧
        body.mapM symOf = some (toSymbols data ++ checksumSymbols (createChecksum hrp (toSymbols data))) ∧
        ∀ c ∈ body, if hrp.any isUpperLetter then isLowerLetter c = false else isUpperLetter c = false

/-- R106 and R105: construction's checks, in their order, and the policy after them. That the policy's length
is the program's number of bytes is the model's choice (log 22). -/
def Obligations.WitnessProgramConstruction : Prop :=
  ∀ (policy : Policy) (version : Nat) (program : List Byte) (net : Network),
    WitnessProgram.new policy version program net =
      if version > 16 then .error .versionTooLarge
      else if program.length < 2 ∨ program.length > 40 then .error .programLength
      else if version = 0 ∧ ¬(program.length = 20 ∨ program.length = 32) then .error .v0ProgramLength
      else if policy net version program.length = true then .ok ⟨version, program, net⟩
      else .error .programLength

/-- R107, R104, R109: for a valid table that names the network, as every table names Mainnet and Testnet (R103),
`to_address` of a valid witness program never fails, and `from_address` gives the program back. -/
def Obligations.AddressOfAWitnessProgramRoundTrips : Prop :=
  ∀ (table : NetworkTable) (policy : Policy) (version : Nat) (program : List Byte) (net : Network)
    (w : WitnessProgram),
    table.Valid → net ∈ table.entries.map Prod.fst → WitnessProgram.new policy version program net = .ok w →
    ∃ s, toAddress table w = .ok s ∧ fromAddress table policy s = .ok w
end

