-- ==== Sys2Proof/Laws/Operands.lean ====
section
/-! SUPPORT. What the operand checks and the case tracker answer. -/

namespace Sys2Proof.Machine

theorem symOperand_eq_ok {d : Byte} {v : Symbol} :
    symOperand d = .ok v ↔ d.toNat ≤ 31 ∧ v = d.setWidth 5 := by
  by_cases h : 31 < d.toNat
  · rw [symOperand, if_pos h]
    exact ⟨fun he => (nomatch he), fun he => absurd he.1 (Nat.not_le.2 h)⟩
  · rw [symOperand, if_neg h]
    exact ⟨fun he => ⟨Nat.not_lt.1 h, (Except.ok.inj he).symm⟩, fun he => he.2 ▸ rfl⟩

theorem symOperand_eq_error {d : Byte} {e : ErrCode} :
    symOperand d = .error e ↔ 31 < d.toNat ∧ e = .symRange := by
  by_cases h : 31 < d.toNat
  · rw [symOperand, if_pos h]
    exact ⟨fun he => ⟨h, (Except.error.inj he).symm⟩, fun he => he.2 ▸ rfl⟩
  · rw [symOperand, if_neg h]
    exact ⟨fun he => (nomatch he), fun he => absurd he.1 h⟩

theorem charOperand_eq_ok {d c : Byte} : charOperand d = .ok c ↔ inBand d = true ∧ c = d := by
  by_cases h : inBand d = true
  · rw [charOperand, if_pos h]
    exact ⟨fun he => ⟨h, (Except.ok.inj he).symm⟩, fun he => he.2 ▸ rfl⟩
  · rw [charOperand, if_neg h]
    exact ⟨fun he => (nomatch he), fun he => absurd he.1 h⟩

theorem charOperand_eq_error {d : Byte} {e : ErrCode} :
    charOperand d = .error e ↔ inBand d = false ∧ e = .ascii := by
  by_cases h : inBand d = true
  · rw [charOperand, if_pos h]
    exact ⟨fun he => (nomatch he), fun he => absurd h (Bool.eq_false_iff.1 he.1)⟩
  · rw [charOperand, if_neg h]
    exact ⟨fun he => ⟨Bool.eq_false_iff.2 h, (Except.error.inj he).symm⟩, fun he => he.2 ▸ rfl⟩

theorem valueOperand_eq_ok {f : Nat} {d x : Byte} :
    valueOperand f d = .ok x ↔ d >>> f = 0 ∧ x = d := by
  unfold valueOperand
  split <;> simp_all [eq_comm]

theorem valueOperand_eq_error {f : Nat} {d : Byte} {e : ErrCode} :
    valueOperand f d = .error e ↔ d >>> f ≠ 0 ∧ e = .convData := by
  unfold valueOperand
  split <;> simp_all [eq_comm]

theorem dataSymbol_eq_ok {c : Byte} {v : Symbol} : dataSymbol c = .ok v ↔ symOf c = some v := by
  unfold dataSymbol
  split <;> simp_all

theorem dataSymbol_eq_error {c : Byte} {e : ErrCode} :
    dataSymbol c = .error e ↔ symOf c = none ∧ e = .charset := by
  unfold dataSymbol
  cases symOf c <;> simp [eq_comm]

/-- The tracker after an accepted character: a letter's class, or what it was. -/
theorem trackCase_eq_ok {seen k : CaseSeen} {c : Byte} :
    trackCase seen c = .ok k ↔
      (caseClass c = .none ∨ seen = .none ∨ caseClass c = seen) ∧
      k = if caseClass c = .none then seen else caseClass c := by
  unfold trackCase
  split
  · simp_all [eq_comm]
  · split
    · simp_all [eq_comm]
    · split <;> simp_all [eq_comm]

theorem trackCase_eq_error {seen : CaseSeen} {c : Byte} {e : ErrCode} :
    trackCase seen c = .error e ↔
      caseClass c ≠ .none ∧ seen ≠ .none ∧ caseClass c ≠ seen ∧ e = .mixedCase := by
  unfold trackCase
  split
  · simp_all
  · split
    · simp_all
    · split <;> simp_all [eq_comm]

end Sys2Proof.Machine
end

