-- ==== Sys2Proof/Laws/State.lean ====
section
/-! SUPPORT. What each named update of the state does to each field, true by unfolding it once. -/

namespace Sys2Proof.Machine.State

variable (s : State)

/-! ## setChk -/

@[simp] theorem setChk_basePage (c : Checksum) : (s.setChk c).basePage = s.basePage := rfl
@[simp] theorem setChk_oqDepth (c : Checksum) : (s.setChk c).oqDepth = s.oqDepth := rfl
@[simp] theorem setChk_chk (c : Checksum) : (s.setChk c).chk = c := rfl
@[simp] theorem setChk_ckres (c : Checksum) : (s.setChk c).ckres = s.ckres := rfl
@[simp] theorem setChk_ckok (c : Checksum) : (s.setChk c).ckok = s.ckok := rfl
@[simp] theorem setChk_caseSeen (c : Checksum) : (s.setChk c).caseSeen = s.caseSeen := rfl
@[simp] theorem setChk_fromW (c : Checksum) : (s.setChk c).fromW = s.fromW := rfl
@[simp] theorem setChk_toW (c : Checksum) : (s.setChk c).toW = s.toW := rfl
@[simp] theorem setChk_pad (c : Checksum) : (s.setChk c).pad = s.pad := rfl
@[simp] theorem setChk_acc (c : Checksum) : (s.setChk c).acc = s.acc := rfl
@[simp] theorem setChk_bits (c : Checksum) : (s.setChk c).bits = s.bits := rfl
@[simp] theorem setChk_oq (c : Checksum) : (s.setChk c).oq = s.oq := rfl
@[simp] theorem setChk_err (c : Checksum) : (s.setChk c).err = s.err := rfl
@[simp] theorem setChk_errinfo (c : Checksum) : (s.setChk c).errinfo = s.errinfo := rfl
@[simp] theorem setChk_pending (c : Checksum) : (s.setChk c).pending = s.pending := rfl
@[simp] theorem setChk_replies (c : Checksum) : (s.setChk c).replies = s.replies := rfl
@[simp] theorem setChk_baseAddr (c : Checksum) : (s.setChk c).baseAddr = s.baseAddr := rfl

/-! ## setCkres -/

@[simp] theorem setCkres_basePage (c : Checksum) : (s.setCkres c).basePage = s.basePage := rfl
@[simp] theorem setCkres_oqDepth (c : Checksum) : (s.setCkres c).oqDepth = s.oqDepth := rfl
@[simp] theorem setCkres_chk (c : Checksum) : (s.setCkres c).chk = s.chk := rfl
@[simp] theorem setCkres_ckres (c : Checksum) : (s.setCkres c).ckres = c := rfl
@[simp] theorem setCkres_ckok (c : Checksum) : (s.setCkres c).ckok = s.ckok := rfl
@[simp] theorem setCkres_caseSeen (c : Checksum) : (s.setCkres c).caseSeen = s.caseSeen := rfl
@[simp] theorem setCkres_fromW (c : Checksum) : (s.setCkres c).fromW = s.fromW := rfl
@[simp] theorem setCkres_toW (c : Checksum) : (s.setCkres c).toW = s.toW := rfl
@[simp] theorem setCkres_pad (c : Checksum) : (s.setCkres c).pad = s.pad := rfl
@[simp] theorem setCkres_acc (c : Checksum) : (s.setCkres c).acc = s.acc := rfl
@[simp] theorem setCkres_bits (c : Checksum) : (s.setCkres c).bits = s.bits := rfl
@[simp] theorem setCkres_oq (c : Checksum) : (s.setCkres c).oq = s.oq := rfl
@[simp] theorem setCkres_err (c : Checksum) : (s.setCkres c).err = s.err := rfl
@[simp] theorem setCkres_errinfo (c : Checksum) : (s.setCkres c).errinfo = s.errinfo := rfl
@[simp] theorem setCkres_pending (c : Checksum) : (s.setCkres c).pending = s.pending := rfl
@[simp] theorem setCkres_replies (c : Checksum) : (s.setCkres c).replies = s.replies := rfl
@[simp] theorem setCkres_baseAddr (c : Checksum) : (s.setCkres c).baseAddr = s.baseAddr := rfl

/-! ## setCkok -/

@[simp] theorem setCkok_basePage (b : Bool) : (s.setCkok b).basePage = s.basePage := rfl
@[simp] theorem setCkok_oqDepth (b : Bool) : (s.setCkok b).oqDepth = s.oqDepth := rfl
@[simp] theorem setCkok_chk (b : Bool) : (s.setCkok b).chk = s.chk := rfl
@[simp] theorem setCkok_ckres (b : Bool) : (s.setCkok b).ckres = s.ckres := rfl
@[simp] theorem setCkok_ckok (b : Bool) : (s.setCkok b).ckok = b := rfl
@[simp] theorem setCkok_caseSeen (b : Bool) : (s.setCkok b).caseSeen = s.caseSeen := rfl
@[simp] theorem setCkok_fromW (b : Bool) : (s.setCkok b).fromW = s.fromW := rfl
@[simp] theorem setCkok_toW (b : Bool) : (s.setCkok b).toW = s.toW := rfl
@[simp] theorem setCkok_pad (b : Bool) : (s.setCkok b).pad = s.pad := rfl
@[simp] theorem setCkok_acc (b : Bool) : (s.setCkok b).acc = s.acc := rfl
@[simp] theorem setCkok_bits (b : Bool) : (s.setCkok b).bits = s.bits := rfl
@[simp] theorem setCkok_oq (b : Bool) : (s.setCkok b).oq = s.oq := rfl
@[simp] theorem setCkok_err (b : Bool) : (s.setCkok b).err = s.err := rfl
@[simp] theorem setCkok_errinfo (b : Bool) : (s.setCkok b).errinfo = s.errinfo := rfl
@[simp] theorem setCkok_pending (b : Bool) : (s.setCkok b).pending = s.pending := rfl
@[simp] theorem setCkok_replies (b : Bool) : (s.setCkok b).replies = s.replies := rfl
@[simp] theorem setCkok_baseAddr (b : Bool) : (s.setCkok b).baseAddr = s.baseAddr := rfl

/-! ## setCase -/

@[simp] theorem setCase_basePage (k : CaseSeen) : (s.setCase k).basePage = s.basePage := rfl
@[simp] theorem setCase_oqDepth (k : CaseSeen) : (s.setCase k).oqDepth = s.oqDepth := rfl
@[simp] theorem setCase_chk (k : CaseSeen) : (s.setCase k).chk = s.chk := rfl
@[simp] theorem setCase_ckres (k : CaseSeen) : (s.setCase k).ckres = s.ckres := rfl
@[simp] theorem setCase_ckok (k : CaseSeen) : (s.setCase k).ckok = s.ckok := rfl
@[simp] theorem setCase_caseSeen (k : CaseSeen) : (s.setCase k).caseSeen = k := rfl
@[simp] theorem setCase_fromW (k : CaseSeen) : (s.setCase k).fromW = s.fromW := rfl
@[simp] theorem setCase_toW (k : CaseSeen) : (s.setCase k).toW = s.toW := rfl
@[simp] theorem setCase_pad (k : CaseSeen) : (s.setCase k).pad = s.pad := rfl
@[simp] theorem setCase_acc (k : CaseSeen) : (s.setCase k).acc = s.acc := rfl
@[simp] theorem setCase_bits (k : CaseSeen) : (s.setCase k).bits = s.bits := rfl
@[simp] theorem setCase_oq (k : CaseSeen) : (s.setCase k).oq = s.oq := rfl
@[simp] theorem setCase_err (k : CaseSeen) : (s.setCase k).err = s.err := rfl
@[simp] theorem setCase_errinfo (k : CaseSeen) : (s.setCase k).errinfo = s.errinfo := rfl
@[simp] theorem setCase_pending (k : CaseSeen) : (s.setCase k).pending = s.pending := rfl
@[simp] theorem setCase_replies (k : CaseSeen) : (s.setCase k).replies = s.replies := rfl
@[simp] theorem setCase_baseAddr (k : CaseSeen) : (s.setCase k).baseAddr = s.baseAddr := rfl

/-! ## setConfig -/

@[simp] theorem setConfig_basePage (f t : Nat) (p : Bool) : (s.setConfig f t p).basePage = s.basePage := rfl
@[simp] theorem setConfig_oqDepth (f t : Nat) (p : Bool) : (s.setConfig f t p).oqDepth = s.oqDepth := rfl
@[simp] theorem setConfig_chk (f t : Nat) (p : Bool) : (s.setConfig f t p).chk = s.chk := rfl
@[simp] theorem setConfig_ckres (f t : Nat) (p : Bool) : (s.setConfig f t p).ckres = s.ckres := rfl
@[simp] theorem setConfig_ckok (f t : Nat) (p : Bool) : (s.setConfig f t p).ckok = s.ckok := rfl
@[simp] theorem setConfig_caseSeen (f t : Nat) (p : Bool) : (s.setConfig f t p).caseSeen = s.caseSeen := rfl
@[simp] theorem setConfig_fromW (f t : Nat) (p : Bool) : (s.setConfig f t p).fromW = f := rfl
@[simp] theorem setConfig_toW (f t : Nat) (p : Bool) : (s.setConfig f t p).toW = t := rfl
@[simp] theorem setConfig_pad (f t : Nat) (p : Bool) : (s.setConfig f t p).pad = p := rfl
@[simp] theorem setConfig_acc (f t : Nat) (p : Bool) : (s.setConfig f t p).acc = s.acc := rfl
@[simp] theorem setConfig_bits (f t : Nat) (p : Bool) : (s.setConfig f t p).bits = s.bits := rfl
@[simp] theorem setConfig_oq (f t : Nat) (p : Bool) : (s.setConfig f t p).oq = s.oq := rfl
@[simp] theorem setConfig_err (f t : Nat) (p : Bool) : (s.setConfig f t p).err = s.err := rfl
@[simp] theorem setConfig_errinfo (f t : Nat) (p : Bool) : (s.setConfig f t p).errinfo = s.errinfo := rfl
@[simp] theorem setConfig_pending (f t : Nat) (p : Bool) : (s.setConfig f t p).pending = s.pending := rfl
@[simp] theorem setConfig_replies (f t : Nat) (p : Bool) : (s.setConfig f t p).replies = s.replies := rfl
@[simp] theorem setConfig_baseAddr (f t : Nat) (p : Bool) : (s.setConfig f t p).baseAddr = s.baseAddr := rfl

/-! ## setBuffer -/

@[simp] theorem setBuffer_basePage (a : Buffer) (b : Nat) : (s.setBuffer a b).basePage = s.basePage := rfl
@[simp] theorem setBuffer_oqDepth (a : Buffer) (b : Nat) : (s.setBuffer a b).oqDepth = s.oqDepth := rfl
@[simp] theorem setBuffer_chk (a : Buffer) (b : Nat) : (s.setBuffer a b).chk = s.chk := rfl
@[simp] theorem setBuffer_ckres (a : Buffer) (b : Nat) : (s.setBuffer a b).ckres = s.ckres := rfl
@[simp] theorem setBuffer_ckok (a : Buffer) (b : Nat) : (s.setBuffer a b).ckok = s.ckok := rfl
@[simp] theorem setBuffer_caseSeen (a : Buffer) (b : Nat) : (s.setBuffer a b).caseSeen = s.caseSeen := rfl
@[simp] theorem setBuffer_fromW (a : Buffer) (b : Nat) : (s.setBuffer a b).fromW = s.fromW := rfl
@[simp] theorem setBuffer_toW (a : Buffer) (b : Nat) : (s.setBuffer a b).toW = s.toW := rfl
@[simp] theorem setBuffer_pad (a : Buffer) (b : Nat) : (s.setBuffer a b).pad = s.pad := rfl
@[simp] theorem setBuffer_acc (a : Buffer) (b : Nat) : (s.setBuffer a b).acc = a := rfl
@[simp] theorem setBuffer_bits (a : Buffer) (b : Nat) : (s.setBuffer a b).bits = b := rfl
@[simp] theorem setBuffer_oq (a : Buffer) (b : Nat) : (s.setBuffer a b).oq = s.oq := rfl
@[simp] theorem setBuffer_err (a : Buffer) (b : Nat) : (s.setBuffer a b).err = s.err := rfl
@[simp] theorem setBuffer_errinfo (a : Buffer) (b : Nat) : (s.setBuffer a b).errinfo = s.errinfo := rfl
@[simp] theorem setBuffer_pending (a : Buffer) (b : Nat) : (s.setBuffer a b).pending = s.pending := rfl
@[simp] theorem setBuffer_replies (a : Buffer) (b : Nat) : (s.setBuffer a b).replies = s.replies := rfl
@[simp] theorem setBuffer_baseAddr (a : Buffer) (b : Nat) : (s.setBuffer a b).baseAddr = s.baseAddr := rfl

/-! ## enqueue -/

@[simp] theorem enqueue_basePage (outs : List Byte) : (s.enqueue outs).basePage = s.basePage := rfl
@[simp] theorem enqueue_oqDepth (outs : List Byte) : (s.enqueue outs).oqDepth = s.oqDepth := rfl
@[simp] theorem enqueue_chk (outs : List Byte) : (s.enqueue outs).chk = s.chk := rfl
@[simp] theorem enqueue_ckres (outs : List Byte) : (s.enqueue outs).ckres = s.ckres := rfl
@[simp] theorem enqueue_ckok (outs : List Byte) : (s.enqueue outs).ckok = s.ckok := rfl
@[simp] theorem enqueue_caseSeen (outs : List Byte) : (s.enqueue outs).caseSeen = s.caseSeen := rfl
@[simp] theorem enqueue_fromW (outs : List Byte) : (s.enqueue outs).fromW = s.fromW := rfl
@[simp] theorem enqueue_toW (outs : List Byte) : (s.enqueue outs).toW = s.toW := rfl
@[simp] theorem enqueue_pad (outs : List Byte) : (s.enqueue outs).pad = s.pad := rfl
@[simp] theorem enqueue_acc (outs : List Byte) : (s.enqueue outs).acc = s.acc := rfl
@[simp] theorem enqueue_bits (outs : List Byte) : (s.enqueue outs).bits = s.bits := rfl
@[simp] theorem enqueue_oq (outs : List Byte) : (s.enqueue outs).oq = s.oq ++ outs := rfl
@[simp] theorem enqueue_err (outs : List Byte) : (s.enqueue outs).err = s.err := rfl
@[simp] theorem enqueue_errinfo (outs : List Byte) : (s.enqueue outs).errinfo = s.errinfo := rfl
@[simp] theorem enqueue_pending (outs : List Byte) : (s.enqueue outs).pending = s.pending := rfl
@[simp] theorem enqueue_replies (outs : List Byte) : (s.enqueue outs).replies = s.replies := rfl
@[simp] theorem enqueue_baseAddr (outs : List Byte) : (s.enqueue outs).baseAddr = s.baseAddr := rfl

/-! ## dropHead -/

@[simp] theorem dropHead_basePage : (s.dropHead).basePage = s.basePage := rfl
@[simp] theorem dropHead_oqDepth : (s.dropHead).oqDepth = s.oqDepth := rfl
@[simp] theorem dropHead_chk : (s.dropHead).chk = s.chk := rfl
@[simp] theorem dropHead_ckres : (s.dropHead).ckres = s.ckres := rfl
@[simp] theorem dropHead_ckok : (s.dropHead).ckok = s.ckok := rfl
@[simp] theorem dropHead_caseSeen : (s.dropHead).caseSeen = s.caseSeen := rfl
@[simp] theorem dropHead_fromW : (s.dropHead).fromW = s.fromW := rfl
@[simp] theorem dropHead_toW : (s.dropHead).toW = s.toW := rfl
@[simp] theorem dropHead_pad : (s.dropHead).pad = s.pad := rfl
@[simp] theorem dropHead_acc : (s.dropHead).acc = s.acc := rfl
@[simp] theorem dropHead_bits : (s.dropHead).bits = s.bits := rfl
@[simp] theorem dropHead_oq : (s.dropHead).oq = s.oq.tail := rfl
@[simp] theorem dropHead_err : (s.dropHead).err = s.err := rfl
@[simp] theorem dropHead_errinfo : (s.dropHead).errinfo = s.errinfo := rfl
@[simp] theorem dropHead_pending : (s.dropHead).pending = s.pending := rfl
@[simp] theorem dropHead_replies : (s.dropHead).replies = s.replies := rfl
@[simp] theorem dropHead_baseAddr : (s.dropHead).baseAddr = s.baseAddr := rfl

/-! ## capture -/

@[simp] theorem capture_basePage (e : ErrCode) (w : Word) : (s.capture e w).basePage = s.basePage := rfl
@[simp] theorem capture_oqDepth (e : ErrCode) (w : Word) : (s.capture e w).oqDepth = s.oqDepth := rfl
@[simp] theorem capture_chk (e : ErrCode) (w : Word) : (s.capture e w).chk = s.chk := rfl
@[simp] theorem capture_ckres (e : ErrCode) (w : Word) : (s.capture e w).ckres = s.ckres := rfl
@[simp] theorem capture_ckok (e : ErrCode) (w : Word) : (s.capture e w).ckok = s.ckok := rfl
@[simp] theorem capture_caseSeen (e : ErrCode) (w : Word) : (s.capture e w).caseSeen = s.caseSeen := rfl
@[simp] theorem capture_fromW (e : ErrCode) (w : Word) : (s.capture e w).fromW = s.fromW := rfl
@[simp] theorem capture_toW (e : ErrCode) (w : Word) : (s.capture e w).toW = s.toW := rfl
@[simp] theorem capture_pad (e : ErrCode) (w : Word) : (s.capture e w).pad = s.pad := rfl
@[simp] theorem capture_acc (e : ErrCode) (w : Word) : (s.capture e w).acc = s.acc := rfl
@[simp] theorem capture_bits (e : ErrCode) (w : Word) : (s.capture e w).bits = s.bits := rfl
@[simp] theorem capture_oq (e : ErrCode) (w : Word) : (s.capture e w).oq = s.oq := rfl
@[simp] theorem capture_err (e : ErrCode) (w : Word) : (s.capture e w).err = e := rfl
@[simp] theorem capture_errinfo (e : ErrCode) (w : Word) : (s.capture e w).errinfo = w := rfl
@[simp] theorem capture_pending (e : ErrCode) (w : Word) : (s.capture e w).pending = s.pending := rfl
@[simp] theorem capture_replies (e : ErrCode) (w : Word) : (s.capture e w).replies = s.replies := rfl
@[simp] theorem capture_baseAddr (e : ErrCode) (w : Word) : (s.capture e w).baseAddr = s.baseAddr := rfl

/-! ## clearError -/

@[simp] theorem clearError_basePage : (s.clearError).basePage = s.basePage := rfl
@[simp] theorem clearError_oqDepth : (s.clearError).oqDepth = s.oqDepth := rfl
@[simp] theorem clearError_chk : (s.clearError).chk = s.chk := rfl
@[simp] theorem clearError_ckres : (s.clearError).ckres = s.ckres := rfl
@[simp] theorem clearError_ckok : (s.clearError).ckok = s.ckok := rfl
@[simp] theorem clearError_caseSeen : (s.clearError).caseSeen = s.caseSeen := rfl
@[simp] theorem clearError_fromW : (s.clearError).fromW = s.fromW := rfl
@[simp] theorem clearError_toW : (s.clearError).toW = s.toW := rfl
@[simp] theorem clearError_pad : (s.clearError).pad = s.pad := rfl
@[simp] theorem clearError_acc : (s.clearError).acc = s.acc := rfl
@[simp] theorem clearError_bits : (s.clearError).bits = s.bits := rfl
@[simp] theorem clearError_oq : (s.clearError).oq = s.oq := rfl
@[simp] theorem clearError_err : (s.clearError).err = .noError := rfl
@[simp] theorem clearError_errinfo : (s.clearError).errinfo = 0 := rfl
@[simp] theorem clearError_pending : (s.clearError).pending = s.pending := rfl
@[simp] theorem clearError_replies : (s.clearError).replies = s.replies := rfl
@[simp] theorem clearError_baseAddr : (s.clearError).baseAddr = s.baseAddr := rfl

/-! ## resetBlock -/

@[simp] theorem resetBlock_basePage : (s.resetBlock).basePage = s.basePage := rfl
@[simp] theorem resetBlock_oqDepth : (s.resetBlock).oqDepth = s.oqDepth := rfl
@[simp] theorem resetBlock_chk : (s.resetBlock).chk = 1 := rfl
@[simp] theorem resetBlock_ckres : (s.resetBlock).ckres = 0 := rfl
@[simp] theorem resetBlock_ckok : (s.resetBlock).ckok = false := rfl
@[simp] theorem resetBlock_caseSeen : (s.resetBlock).caseSeen = .none := rfl
@[simp] theorem resetBlock_fromW : (s.resetBlock).fromW = 8 := rfl
@[simp] theorem resetBlock_toW : (s.resetBlock).toW = 5 := rfl
@[simp] theorem resetBlock_pad : (s.resetBlock).pad = true := rfl
@[simp] theorem resetBlock_acc : (s.resetBlock).acc = 0 := rfl
@[simp] theorem resetBlock_bits : (s.resetBlock).bits = 0 := rfl
@[simp] theorem resetBlock_oq : (s.resetBlock).oq = [] := rfl
@[simp] theorem resetBlock_err : (s.resetBlock).err = .noError := rfl
@[simp] theorem resetBlock_errinfo : (s.resetBlock).errinfo = 0 := rfl
@[simp] theorem resetBlock_pending : (s.resetBlock).pending = s.pending := rfl
@[simp] theorem resetBlock_replies : (s.resetBlock).replies = s.replies := rfl
@[simp] theorem resetBlock_baseAddr : (s.resetBlock).baseAddr = s.baseAddr := rfl

/-! ## setPending -/

@[simp] theorem setPending_basePage (es : List BusEvent) : (s.setPending es).basePage = s.basePage := rfl
@[simp] theorem setPending_oqDepth (es : List BusEvent) : (s.setPending es).oqDepth = s.oqDepth := rfl
@[simp] theorem setPending_chk (es : List BusEvent) : (s.setPending es).chk = s.chk := rfl
@[simp] theorem setPending_ckres (es : List BusEvent) : (s.setPending es).ckres = s.ckres := rfl
@[simp] theorem setPending_ckok (es : List BusEvent) : (s.setPending es).ckok = s.ckok := rfl
@[simp] theorem setPending_caseSeen (es : List BusEvent) : (s.setPending es).caseSeen = s.caseSeen := rfl
@[simp] theorem setPending_fromW (es : List BusEvent) : (s.setPending es).fromW = s.fromW := rfl
@[simp] theorem setPending_toW (es : List BusEvent) : (s.setPending es).toW = s.toW := rfl
@[simp] theorem setPending_pad (es : List BusEvent) : (s.setPending es).pad = s.pad := rfl
@[simp] theorem setPending_acc (es : List BusEvent) : (s.setPending es).acc = s.acc := rfl
@[simp] theorem setPending_bits (es : List BusEvent) : (s.setPending es).bits = s.bits := rfl
@[simp] theorem setPending_oq (es : List BusEvent) : (s.setPending es).oq = s.oq := rfl
@[simp] theorem setPending_err (es : List BusEvent) : (s.setPending es).err = s.err := rfl
@[simp] theorem setPending_errinfo (es : List BusEvent) : (s.setPending es).errinfo = s.errinfo := rfl
@[simp] theorem setPending_pending (es : List BusEvent) : (s.setPending es).pending = es := rfl
@[simp] theorem setPending_replies (es : List BusEvent) : (s.setPending es).replies = s.replies := rfl
@[simp] theorem setPending_baseAddr (es : List BusEvent) : (s.setPending es).baseAddr = s.baseAddr := rfl

/-! ## logReply -/

@[simp] theorem logReply_basePage (r : Reply) : (s.logReply r).basePage = s.basePage := rfl
@[simp] theorem logReply_oqDepth (r : Reply) : (s.logReply r).oqDepth = s.oqDepth := rfl
@[simp] theorem logReply_chk (r : Reply) : (s.logReply r).chk = s.chk := rfl
@[simp] theorem logReply_ckres (r : Reply) : (s.logReply r).ckres = s.ckres := rfl
@[simp] theorem logReply_ckok (r : Reply) : (s.logReply r).ckok = s.ckok := rfl
@[simp] theorem logReply_caseSeen (r : Reply) : (s.logReply r).caseSeen = s.caseSeen := rfl
@[simp] theorem logReply_fromW (r : Reply) : (s.logReply r).fromW = s.fromW := rfl
@[simp] theorem logReply_toW (r : Reply) : (s.logReply r).toW = s.toW := rfl
@[simp] theorem logReply_pad (r : Reply) : (s.logReply r).pad = s.pad := rfl
@[simp] theorem logReply_acc (r : Reply) : (s.logReply r).acc = s.acc := rfl
@[simp] theorem logReply_bits (r : Reply) : (s.logReply r).bits = s.bits := rfl
@[simp] theorem logReply_oq (r : Reply) : (s.logReply r).oq = s.oq := rfl
@[simp] theorem logReply_err (r : Reply) : (s.logReply r).err = s.err := rfl
@[simp] theorem logReply_errinfo (r : Reply) : (s.logReply r).errinfo = s.errinfo := rfl
@[simp] theorem logReply_pending (r : Reply) : (s.logReply r).pending = s.pending := rfl
@[simp] theorem logReply_replies (r : Reply) : (s.logReply r).replies = r :: s.replies := rfl
@[simp] theorem logReply_baseAddr (r : Reply) : (s.logReply r).baseAddr = s.baseAddr := rfl

end Sys2Proof.Machine.State
end

