-- ==== Sys2Proof/Laws/Ops.lean ====
section
/-! SUPPORT. What the shared operations can do, said once: the lock, the push, error capture and the running
of a rule. -/

namespace Sys2Proof.Machine

/-! ## The lock -/

@[simp] theorem State.locked_eq_true (s : State) : s.locked = true ↔ s.err ≠ .noError := by
  simp [State.locked]

@[simp] theorem State.locked_eq_false (s : State) : s.locked = false ↔ s.err = .noError := by
  simp [State.locked]

theorem unlessLocked_of_locked {s : State} (h : s.err ≠ .noError) (run : Result) :
    unlessLocked s run = .next s := by
  simp [unlessLocked, h]

theorem unlessLocked_of_unlocked {s : State} (h : s.err = .noError) (run : Result) :
    unlessLocked s run = run := by
  simp [unlessLocked, h]

/-! ## The output queue -/

theorem State.push_eq_ok {s t : State} {outs : List Byte} :
    s.push outs = .ok t ↔ s.oq.length + outs.length ≤ s.oqDepth ∧ t = s.enqueue outs := by
  unfold State.push
  split
  · rename_i h
    simp [h, eq_comm]
  · rename_i h
    simp [h]

theorem State.push_eq_error {s : State} {outs : List Byte} {e : ErrCode} :
    s.push outs = .error e ↔ s.oqDepth < s.oq.length + outs.length ∧ e = .oqOverflow := by
  unfold State.push
  split
  · simp; omega
  · simp [eq_comm]; omega

/-! ## Running a rule -/

theorem runRule_of_locked {s : State} (h : s.err ≠ .noError) (i : Instr)
    (rule : State → Except ErrCode State) : runRule i rule s = .next s :=
  unlessLocked_of_locked h _

theorem runRule_of_ok {s t : State} (h : s.err = .noError) (i : Instr)
    {rule : State → Except ErrCode State} (hr : rule s = .ok t) : runRule i rule s = .next t := by
  simp [runRule, unlessLocked_of_unlocked h, hr]

theorem runRule_of_error {s : State} {e : ErrCode} (h : s.err = .noError) (i : Instr)
    {rule : State → Except ErrCode State} (hr : rule s = .error e) :
    runRule i rule s = .next (s.capture e (encode i)) := by
  simp [runRule, unlessLocked_of_unlocked h, hr, raise]

/-- Everything a run of a rule can do: be discarded, commit, or capture. -/
theorem runRule_eq_next {i : Instr} {rule : State → Except ErrCode State} {s t : State} :
    runRule i rule s = .next t ↔
      (s.err ≠ .noError ∧ t = s) ∨
      (s.err = .noError ∧ rule s = .ok t) ∨
      (s.err = .noError ∧ ∃ e, rule s = .error e ∧ t = s.capture e (encode i)) := by
  by_cases h : s.err = .noError
  · cases hr : rule s with
    | ok u => simp [runRule_of_ok h i hr, h]
    | error e => simp [runRule_of_error h i hr, h, eq_comm]
  · simp [runRule_of_locked h, h, eq_comm]

/-- A run of a rule always goes on. -/
theorem runRule_goes_on (i : Instr) (rule : State → Except ErrCode State) (s : State) :
    ∃ t, runRule i rule s = .next t := by
  by_cases h : s.err = .noError
  · cases hr : rule s with
    | ok u => exact ⟨u, runRule_of_ok h i hr⟩
    | error e => exact ⟨_, runRule_of_error h i hr⟩
  · exact ⟨s, runRule_of_locked h i rule⟩

theorem runIllegal_of_locked {s : State} (h : s.err ≠ .noError) (w : Word) : runIllegal w s = .next s :=
  unlessLocked_of_locked h _

theorem runIllegal_of_unlocked {s : State} (h : s.err = .noError) (w : Word) :
    runIllegal w s = .next (s.capture .illegal w) :=
  unlessLocked_of_unlocked h _

end Sys2Proof.Machine
end

