-- ==== Sys2Proof/Laws/Rules.lean ====
section
/-! SUPPORT. When the rule of each family commits and what it then gives, and that a command always goes
on. -/

namespace Sys2Proof.Machine

theorem encodeSymbol_eq_ok {fold : Byte → Byte} {d : Byte} {s t : State} :
    encodeSymbol fold d s = .ok t ↔
      d.toNat ≤ 31 ∧ s.oq.length + 1 ≤ s.oqDepth ∧ t = s.enqueue [fold (charOf (d.setWidth 5))] := by
  unfold encodeSymbol
  cases h : symOperand d with
  | ok v =>
    obtain ⟨hd, rfl⟩ := symOperand_eq_ok.1 h
    simp [bind, Except.bind, State.push_eq_ok, hd]
  | error e =>
    obtain ⟨hd, rfl⟩ := symOperand_eq_error.1 h
    simp [bind, Except.bind]
    omega

theorem checkChar_eq_ok {d : Byte} {s t : State} :
    checkChar d s = .ok t ↔
      inBand d = true ∧ ∃ k, trackCase s.caseSeen d = .ok k ∧ t = s.setCase k := by
  unfold checkChar
  cases h : charOperand d with
  | ok c =>
    obtain ⟨hd, rfl⟩ := charOperand_eq_ok.1 h
    cases hk : trackCase s.caseSeen c <;> simp [bind, Except.bind, hk, hd, eq_comm]
  | error e =>
    obtain ⟨hd, rfl⟩ := charOperand_eq_error.1 h
    simp [bind, Except.bind, hd]

theorem decodeChar_eq_ok {d : Byte} {s t : State} :
    decodeChar d s = .ok t ↔
      inBand d = true ∧ ∃ k, trackCase s.caseSeen d = .ok k ∧ ∃ v, symOf d = some v ∧
        s.oq.length + 1 ≤ s.oqDepth ∧ t = (s.enqueue [v.setWidth 8]).setCase k := by
  unfold decodeChar
  cases h : charOperand d with
  | error e =>
    obtain ⟨hd, rfl⟩ := charOperand_eq_error.1 h
    simp [bind, Except.bind, hd]
  | ok c =>
    obtain ⟨hd, rfl⟩ := charOperand_eq_ok.1 h
    cases hk : trackCase s.caseSeen c with
    | error e => simp [bind, Except.bind, hk]
    | ok k =>
      cases hv : dataSymbol c with
      | error e =>
        obtain ⟨hn, rfl⟩ := dataSymbol_eq_error.1 hv
        simp [bind, Except.bind, hk, hv, hn]
      | ok v =>
        have hs := dataSymbol_eq_ok.1 hv
        cases hp : s.push [v.setWidth 8] with
        | error e =>
          obtain ⟨hl, rfl⟩ := State.push_eq_error.1 hp
          simp [bind, Except.bind, hk, hv, hp, hs]
          intro _ hle
          simp at hl
          omega
        | ok u =>
          obtain ⟨hl, rfl⟩ := State.push_eq_ok.1 hp
          simp at hl
          simp [bind, Except.bind, hk, hv, hp, hs, hd, hl, eq_comm]

theorem foldSymbol_eq_ok {d : Byte} {s t : State} :
    foldSymbol d s = .ok t ↔ d.toNat ≤ 31 ∧ t = s.setChk (stepChk s.chk (d.setWidth 5)) := by
  unfold foldSymbol
  cases h : symOperand d with
  | ok v =>
    obtain ⟨hd, rfl⟩ := symOperand_eq_ok.1 h
    simp [bind, Except.bind, hd, eq_comm]
  | error e =>
    obtain ⟨hd, rfl⟩ := symOperand_eq_error.1 h
    simp [bind, Except.bind]
    omega

theorem foldHrp_eq_ok {part : Byte → Symbol} {d : Byte} {s t : State} :
    foldHrp part d s = .ok t ↔ inBand d = true ∧ t = s.setChk (stepChk s.chk (part d)) := by
  unfold foldHrp
  cases h : charOperand d with
  | ok c =>
    obtain ⟨hd, rfl⟩ := charOperand_eq_ok.1 h
    simp [bind, Except.bind, hd, eq_comm]
  | error e =>
    obtain ⟨hd, rfl⟩ := charOperand_eq_error.1 h
    simp [bind, Except.bind, hd]

/-- What `CV.PUSH` emits, in the terms of R89. -/
abbrev pushed (d : Byte) (s : State) : List Byte × Nat :=
  emitGroups (bufferAfter s.acc s.fromW d) s.toW (s.bits + s.fromW) (s.bits + s.fromW)

theorem pushGroup_eq_ok {d : Byte} {s t : State} :
    pushGroup d s = .ok t ↔
      d >>> s.fromW = 0 ∧ s.oq.length + (pushed d s).1.length ≤ s.oqDepth ∧
        t = (s.enqueue (pushed d s).1).setBuffer (bufferAfter s.acc s.fromW d) (pushed d s).2 := by
  unfold pushGroup
  cases h : valueOperand s.fromW d with
  | error e =>
    obtain ⟨hd, rfl⟩ := valueOperand_eq_error.1 h
    simp only [bind, Except.bind, reduceCtorEq, false_iff]
    exact fun hc => hd hc.1
  | ok x =>
    obtain ⟨hd, rfl⟩ := valueOperand_eq_ok.1 h
    cases hp : s.push (pushed x s).1 with
    | error e =>
      obtain ⟨hl, rfl⟩ := State.push_eq_error.1 hp
      simp [bind, Except.bind, hp, hd]
      intro hle
      omega
    | ok u =>
      obtain ⟨hl, rfl⟩ := State.push_eq_ok.1 hp
      simp [bind, Except.bind, hp, hd, hl, eq_comm]

theorem flushGroups_eq_ok {s t : State} :
    flushGroups s = .ok t ↔
      ∃ outs, finalGroups s = .ok outs ∧ s.oq.length + outs.length ≤ s.oqDepth ∧
        t = (s.enqueue outs).setBuffer 0 0 := by
  unfold flushGroups
  cases h : finalGroups s with
  | error e => simp [bind, Except.bind]
  | ok outs =>
    cases hp : s.push outs with
    | error e =>
      obtain ⟨hl, rfl⟩ := State.push_eq_error.1 hp
      simp [bind, Except.bind, hp]
      intro hle
      omega
    | ok u =>
      obtain ⟨hl, rfl⟩ := State.push_eq_ok.1 hp
      simp [bind, Except.bind, hp, hl, eq_comm]

/-- A verification always goes on. -/
theorem execCkVer_goes_on (s : State) : ∃ t, execCkVer s = .next t := by
  unfold execCkVer unlessLocked raise
  split
  · exact ⟨_, rfl⟩
  · dsimp only
    split <;> exact ⟨_, rfl⟩

/-- A command always goes on: no arm answers a fault or a refusal. -/
theorem exec_goes_on (i : Instr) (s : State) : ∃ t, exec i s = .next t := by
  cases i with
  | nop => exact runRule_goes_on .nop .ok s
  | sysRst => exact ⟨_, rfl⟩
  | sysClrerr => exact ⟨_, rfl⟩
  | cmClr => exact runRule_goes_on .cmClr clearCase s
  | cmEnc v => exact runRule_goes_on (.cmEnc v) _ s
  | cmEncu v => exact runRule_goes_on (.cmEncu v) _ s
  | cmDec c => exact runRule_goes_on (.cmDec c) _ s
  | cmCase c => exact runRule_goes_on (.cmCase c) _ s
  | ckInit => exact runRule_goes_on .ckInit initChecksum s
  | ckStep v => exact runRule_goes_on (.ckStep v) _ s
  | ckHrph c => exact runRule_goes_on (.ckHrph c) _ s
  | ckHrpl c => exact runRule_goes_on (.ckHrpl c) _ s
  | ckFin => exact runRule_goes_on .ckFin finishChecksum s
  | ckVer => exact execCkVer_goes_on s
  | cvCfg f t => exact runRule_goes_on (.cvCfg f t) (configure f t false) s
  | cvCfgp f t => exact runRule_goes_on (.cvCfgp f t) (configure f t true) s
  | cvPush x => exact runRule_goes_on (.cvPush x) _ s
  | cvFlush => exact runRule_goes_on .cvFlush _ s

end Sys2Proof.Machine
end

