-- ==== Sys2Proof/Laws/Bus.lean ====
section
/-! SUPPORT. The bus and the step: an offset of the window reaches the block, what an access can do, and how
a host procedure composes. -/

namespace Sys2Proof.Machine

/-! ## Addresses of the window -/

theorem inWindow_baseAddr_add (s : State) {off : Nat} (h : off < 256) :
    inWindow s (s.baseAddr + off) = true := by
  unfold inWindow State.baseAddr Config.windowSize
  exact decide_eq_true (by omega)

theorem offsetOf_baseAddr_add (s : State) {off : Nat} (h : off < 256) :
    offsetOf (s.baseAddr + off) = off := by
  simp only [offsetOf, State.baseAddr, Config.windowSize]
  omega

theorem admitted_eq_true {width addr : Nat} :
    admitted width addr = true ↔ width = 32 ∧ offsetOf addr % 4 = 0 := by
  simp [admitted]

/-! ## Answers -/

@[simp] theorem answered_next (r : Reply) (s : State) : answered r (.next s) = .next (s.logReply r) := rfl

theorem answered_eq_next {r : Reply} {o : Result} {t : State} :
    answered r o = .next t ↔ ∃ u, o = .next u ∧ t = u.logReply r := by
  cases o <;> simp [answered, eq_comm]

/-- A write to `CMD` always goes on. -/
theorem issue_goes_on (w : Word) (s : State) : ∃ t, issue w s = .next t := by
  unfold issue
  split
  · exact exec_goes_on _ s
  · by_cases h : s.err = .noError
    · exact ⟨_, runIllegal_of_unlocked h w⟩
    · exact ⟨_, runIllegal_of_locked h w⟩

/-- Everything serving an event can do when it goes on. -/
theorem serve_eq_next {e : BusEvent} {s t : State} (h : serve e s = .next t) :
    (e = .reset ∧ t = s.resetBlock) ∨
    t = s.logReply .busError ∨
    t = s.logReply .written ∨
    (∃ addr, e = .read 32 addr ∧ inWindow s addr = true ∧ admitted 32 addr = true ∧
      t = (afterRead (registerAt (offsetOf addr)) s).logReply
        (.data (registerValue (registerAt (offsetOf addr)) s))) ∨
    (∃ addr w u, e = .write 32 addr w ∧ inWindow s addr = true ∧ admitted 32 addr = true ∧
      registerAt (offsetOf addr) = .cmd ∧ issue w s = .next u ∧ t = u.logReply .written) := by
  cases e with
  | reset =>
    simp only [serve, Host.Outcome.next.injEq] at h
    exact .inl ⟨rfl, h.symm⟩
  | read width addr =>
    simp only [serve, reach] at h
    split at h
    · split at h
      · rename_i hw ha
        obtain ⟨rfl, _⟩ := admitted_eq_true.1 ha
        simp only [busRead, Host.Outcome.next.injEq] at h
        exact .inr (.inr (.inr (.inl ⟨addr, rfl, hw, ha, h.symm⟩)))
      · simp only [Host.Outcome.next.injEq] at h
        exact .inr (.inl h.symm)
    · simp at h
  | write width addr value =>
    simp only [serve, reach] at h
    split at h
    · split at h
      · rename_i hw ha
        obtain ⟨rfl, _⟩ := admitted_eq_true.1 ha
        simp only [busWrite] at h
        split at h
        · rename_i hc
          obtain ⟨u, hu, rfl⟩ := answered_eq_next.1 h
          exact .inr (.inr (.inr (.inr ⟨addr, value, u, rfl, hw, ha, hc, hu, rfl⟩)))
        · simp only [Host.Outcome.next.injEq] at h
          exact .inr (.inr (.inl h.symm))
      · simp only [Host.Outcome.next.injEq] at h
        exact .inr (.inl h.symm)
    · simp at h

/-- A step either finds nothing to serve or serves the oldest access. -/
theorem step_eq_next {s t : State} (h : step s = .next t) :
    (s.pending = [] ∧ t = s) ∨
    ∃ e rest, s.pending = e :: rest ∧ serve e (s.setPending rest) = .next t := by
  unfold step at h
  split at h
  · rename_i hp
    simp only [Host.Outcome.next.injEq] at h
    exact .inl ⟨hp, h.symm⟩
  · rename_i e rest hp
    exact .inr ⟨e, rest, hp, h⟩

/-! ## Host procedures -/

namespace HostProc

@[simp] theorem done_andThen {α β : Type} (a : α) (f : α → HostProc β) (s : State) :
    (done a).andThen f s = f a s := rfl

@[simp] theorem fail_andThen {α β : Type} (e : HostError) (f : α → HostProc β) (s : State) :
    (fail (α := α) e).andThen f s = (.error e, s) := rfl

theorem andThen_of_ok {α β : Type} {p : HostProc α} {f : α → HostProc β} {s t : State} {a : α}
    (h : p s = (.ok a, t)) : p.andThen f s = f a t := by
  simp [andThen, h]

theorem andThen_of_error {α β : Type} {p : HostProc α} {f : α → HostProc β} {s t : State} {e : HostError}
    (h : p s = (.error e, t)) : p.andThen f s = (.error e, t) := by
  simp [andThen, h]

end HostProc

end Sys2Proof.Machine
end

