-- ==== Sys2Proof/Laws/Converter.lean ====
section
/-! SUPPORT. How many groups the emission loops take and how many bits they leave. -/

namespace Sys2Proof.Machine

/-- One pass removes `t` of `b` bits, so with enough fuel `b % t` are left. -/
theorem emitGroups_bits {t : Nat} (ht : 0 < t) (a : Buffer) :
    ∀ fuel b, b ≤ fuel → (emitGroups a t fuel b).2 = b % t
  | 0, b, h => by
    have hb : b = 0 := by omega
    simp [emitGroups, hb]
  | fuel + 1, b, h => by
    unfold emitGroups
    split
    · rename_i hle
      have ih := emitGroups_bits ht a fuel (b - t) (by omega)
      rw [Nat.mod_eq_sub_mod hle, ← ih]
    · rename_i hlt
      simp [Nat.mod_eq_of_lt (Nat.lt_of_not_le hlt)]

/-- With enough fuel the loop takes `b / t` groups. -/
theorem emitGroups_length {t : Nat} (ht : 0 < t) (a : Buffer) :
    ∀ fuel b, b ≤ fuel → (emitGroups a t fuel b).1.length = b / t
  | 0, b, h => by
    have hb : b = 0 := by omega
    simp [emitGroups, hb]
  | fuel + 1, b, h => by
    unfold emitGroups
    split
    · rename_i hle
      have ih := emitGroups_length ht a fuel (b - t) (by omega)
      rw [Nat.div_eq_sub_div ht hle, List.length_cons, ih]
    · rename_i hlt
      simp [Nat.div_eq_of_lt (Nat.lt_of_not_le hlt)]

/-- The reference's loop leaves `bits % t` bits. -/
theorem takeGroups_bits {t : Nat} (ht : 0 < t) (acc : Nat) :
    ∀ fuel bits, bits ≤ fuel → (takeGroups acc t fuel bits).2 = bits % t
  | 0, bits, h => by
    have hb : bits = 0 := by omega
    simp [takeGroups, hb]
  | fuel + 1, bits, h => by
    unfold takeGroups
    split
    · rename_i hle
      have ih := takeGroups_bits ht acc fuel (bits - t) (by omega)
      rw [Nat.mod_eq_sub_mod hle, ← ih]
    · rename_i hlt
      simp [Nat.mod_eq_of_lt (Nat.lt_of_not_le hlt)]

/-- The reference's loop takes `bits / t` groups. -/
theorem takeGroups_length {t : Nat} (ht : 0 < t) (acc : Nat) :
    ∀ fuel bits, bits ≤ fuel → (takeGroups acc t fuel bits).1.length = bits / t
  | 0, bits, h => by
    have hb : bits = 0 := by omega
    simp [takeGroups, hb]
  | fuel + 1, bits, h => by
    unfold takeGroups
    split
    · rename_i hle
      have ih := takeGroups_length ht acc fuel (bits - t) (by omega)
      rw [Nat.div_eq_sub_div ht hle, List.length_cons, ih]
    · rename_i hlt
      simp [Nat.div_eq_of_lt (Nat.lt_of_not_le hlt)]

end Sys2Proof.Machine
end

