-- ==== Sys2Proof/Laws/PerInstr.lean ====
section
/-! SUPPORT. The family TableRow: the encoding of a command agrees with its row of the opcode table on the
row's mask. -/

namespace Sys2Proof.Laws.TableRow

/-- The encoder's value belongs to the command's row of 30_encoding.md R51. -/
def Statement (i : Instr) : Prop := encode i &&& i.row.mask = i.row.pattern

/-- Every operand byte: the masked value has no bit of it. -/
theorem masked_operand (op fn : BitVec 4) (d : Byte) :
    (commandWord op fn d).setWidth 32 &&& (0xFFFFFF00 : Word) = (commandWord op fn 0).setWidth 32 := by
  ext k hk
  simp only [commandWord, BitVec.getElem_and, BitVec.getElem_setWidth, BitVec.getLsbD_append]
  interval_cases k <;> simp

/-- Every pair of widths: the masked operand is zero. -/
theorem masked_widths (f t : Nat) : widthsOperand f t &&& (0x88 : Byte) = 0 := by
  unfold widthsOperand
  generalize BitVec.ofNat 3 (t - 1) = a
  generalize BitVec.ofNat 3 (f - 1) = b
  revert a b
  decide

theorem masked_widths_word (fn : BitVec 4) (f t : Nat) :
    (commandWord 3 fn (widthsOperand f t)).setWidth 32 &&& (0xFFFFFF88 : Word) =
      (commandWord 3 fn 0).setWidth 32 := by
  have h : widthsOperand f t &&& (0x88 : Byte) = 0 := masked_widths f t
  generalize widthsOperand f t = d at h
  revert fn d
  decide +kernel

theorem nop : Statement .nop := rfl
theorem sysRst : Statement .sysRst := rfl
theorem sysClrerr : Statement .sysClrerr := rfl
theorem cmClr : Statement .cmClr := rfl
theorem cmEnc (v : Byte) : Statement (.cmEnc v) := masked_operand 1 1 v
theorem cmEncu (v : Byte) : Statement (.cmEncu v) := masked_operand 1 2 v
theorem cmDec (c : Byte) : Statement (.cmDec c) := masked_operand 1 3 c
theorem cmCase (c : Byte) : Statement (.cmCase c) := masked_operand 1 4 c
theorem ckInit : Statement .ckInit := rfl
theorem ckStep (v : Byte) : Statement (.ckStep v) := masked_operand 2 1 v
theorem ckHrph (c : Byte) : Statement (.ckHrph c) := masked_operand 2 2 c
theorem ckHrpl (c : Byte) : Statement (.ckHrpl c) := masked_operand 2 3 c
theorem ckFin : Statement .ckFin := rfl
theorem ckVer : Statement .ckVer := rfl
theorem cvCfg (f t : Nat) : Statement (.cvCfg f t) := masked_widths_word 0 f t
theorem cvCfgp (f t : Nat) : Statement (.cvCfgp f t) := masked_widths_word 1 f t
theorem cvPush (x : Byte) : Statement (.cvPush x) := masked_operand 3 2 x
theorem cvFlush : Statement .cvFlush := rfl

end Sys2Proof.Laws.TableRow
end

