-- ==== Sys2Proof/Laws/Witness.lean ====
section
/-! SUPPORT. The network table's two fixed entries, and the version as a symbol. -/

namespace Sys2Proof.Machine

@[simp] theorem NetworkTable.hrpOf_mainnet (table : NetworkTable) : table.hrpOf .mainnet = some table.mainnetHrp := rfl

@[simp] theorem NetworkTable.hrpOf_testnet (table : NetworkTable) : table.hrpOf .testnet = some testnetHrp := rfl

theorem NetworkTable.mainnet_mem (table : NetworkTable) : Network.mainnet ∈ table.entries.map Prod.fst := by
  simp [entries]

theorem NetworkTable.testnet_mem (table : NetworkTable) : Network.testnet ∈ table.entries.map Prod.fst := by
  simp [entries]

/-- A version that a byte holds is its own symbol. -/
theorem versionSymbol_toNat {v : Nat} (h : v ≤ 255) : (versionSymbol v).toNat = v := by
  simp only [versionSymbol, BitVec.toNat_ofNat]
  omega

/-- A version that is no symbol is offered as none. -/
theorem versionSymbol_out_of_range {v : Nat} (h : 31 < v) : 31 < (versionSymbol v).toNat := by
  simp only [versionSymbol, BitVec.toNat_ofNat]
  omega

end Sys2Proof.Machine
end

