-- ==== Sys2Proof/Tests/Slice0.lean ====
section
/-! SUPPORT. Tests with expected results from the spec's rules, examples and vectors (95_test_vectors.md), and
for each statement with hypotheses a concrete case that meets them. -/

namespace Sys2Proof.Tests

open Sys2Proof.Machine Sys2Proof.Safety

/-- The result goes on to a state with the property. -/
def ran (o : Result) (p : State → Bool) : Bool :=
  match o with
  | .next t => p t
  | .fault _ => false
  | .refused _ => false

/-- One step that serves one event alone. -/
def event (e : BusEvent) (s : State) : Result := step (s.setPending [e])

/-- One step that serves a write of `w` to `CMD`. -/
def cmd (w : Word) (s : State) : Result := event (cmdWrite s w) s

/-- One step that serves a 32-bit read at an offset of the window answers `v`. -/
def reads (off : Nat) (v : Word) (s : State) : Bool :=
  ran (event (.read 32 (s.baseAddr + off)) s) fun t => t.replies.head? == some (.data v)

/-- A block elsewhere in the address space, with something queued and buffered. -/
def busy : State :=
  { State.reset with
    basePage := 3, chk := 0x25, caseSeen := .lower, oq := [0x71, 0x0F], acc := 0x00FF, bits := 3 }

/-- The same block with a captured `E_CHECKSUM`. -/
def stuck : State := { busy with err := .checksum, errinfo := 0x2500 }

/-- A block whose queue is full. -/
def full : State := { State.reset with oq := List.replicate 16 0x71 }

/-! ## Well-formedness: an ill-formed term for each check -/

theorem test_width_zero_from_refused : (Instr.cvCfg 0 5).wellFormed = false := by decide
theorem test_width_nine_from_refused : (Instr.cvCfg 9 5).wellFormed = false := by decide
theorem test_width_zero_to_refused : (Instr.cvCfg 8 0).wellFormed = false := by decide
theorem test_width_nine_to_refused : (Instr.cvCfg 8 9).wellFormed = false := by decide
theorem test_padded_width_zero_from_refused : (Instr.cvCfgp 0 5).wellFormed = false := by decide
theorem test_padded_width_nine_from_refused : (Instr.cvCfgp 9 5).wellFormed = false := by decide
theorem test_padded_width_zero_to_refused : (Instr.cvCfgp 8 0).wellFormed = false := by decide
theorem test_padded_width_nine_to_refused : (Instr.cvCfgp 8 9).wellFormed = false := by decide

/-! ## Decoding: one word of each row, written out from 30_encoding.md R51 -/

theorem test_decode_nop : decode 0b0000_0000_00000000 = .command .nop := by decide
theorem test_decode_sysRst : decode 0b0000_0001_00000000 = .command .sysRst := by decide
theorem test_decode_sysClrerr : decode 0b0000_0010_00000000 = .command .sysClrerr := by decide
theorem test_decode_cmClr : decode 0b0001_0000_00000000 = .command .cmClr := by decide
theorem test_decode_cmEnc : decode 0b0001_0001_00001111 = .command (.cmEnc 15) := by decide
theorem test_decode_cmEncu : decode 0b0001_0010_11111111 = .command (.cmEncu 255) := by decide
theorem test_decode_cmDec : decode 0b0001_0011_01010001 = .command (.cmDec 0x51) := by decide
theorem test_decode_cmCase : decode 0b0001_0100_01110100 = .command (.cmCase 0x74) := by decide
theorem test_decode_ckInit : decode 0b0010_0000_00000000 = .command .ckInit := by decide
theorem test_decode_ckStep : decode 0b0010_0001_00101000 = .command (.ckStep 40) := by decide
theorem test_decode_ckHrph : decode 0b0010_0010_01110100 = .command (.ckHrph 0x74) := by decide
theorem test_decode_ckHrpl : decode 0b0010_0011_01100001 = .command (.ckHrpl 0x61) := by decide
theorem test_decode_ckFin : decode 0b0010_0100_00000000 = .command .ckFin := by decide
theorem test_decode_ckVer : decode 0b0010_0101_00000000 = .command .ckVer := by decide
theorem test_decode_cvCfg : decode 0b0011_0000_0_111_0_100 = .command (.cvCfg 5 8) := by decide
theorem test_decode_cvCfgp : decode 0b0011_0001_0_100_0_111 = .command (.cvCfgp 8 5) := by decide
theorem test_decode_cvPush : decode 0b0011_0010_11111111 = .command (.cvPush 0xFF) := by decide
theorem test_decode_cvFlush : decode 0b0011_0011_00000000 = .command .cvFlush := by decide

/-- Each kind of 30_encoding.md R53, at the boundary of its range. -/
theorem test_decode_illegal :
    decode 0x00010100 = .illegal .highHalf ∧ decode 0x00004000 = .illegal .reservedOp ∧
    decode 0x00000300 = .illegal .reservedFn ∧ decode 0x00001500 = .illegal .reservedFn ∧
    decode 0x00002600 = .illegal .reservedFn ∧ decode 0x00003400 = .illegal .reservedFn ∧
    decode 0x00002401 = .illegal .operandNotZero ∧ decode 0x00003008 = .illegal .widthsBitSet ∧
    decode 0x00003180 = .illegal .widthsBitSet := by decide

/-- 20_memory.md R38: byte lane 0 carries the low byte. -/
theorem test_decode_lanes : decodeLanes 0x47 0x31 0x00 0x00 = .command (.cvCfgp 8 5) := by decide

theorem test_table_word : decodeTableWord 32 0x00003147 = some (.cvCfgp 8 5) := by decide
theorem test_table_word_illegal : decodeTableWord 32 0x00010100 = none := by decide

/-! ## Commands: examples of the rules and vectors of 95_test_vectors.md -/

/-- R60's example. -/
theorem test_nop : ran (cmd 0x0000 busy) (fun t => t == (busy.logReply .written)) = true := by decide
/-- R61's example, under the lock. -/
theorem test_sysRst :
    ran (cmd 0x0100 stuck)
      (fun t => registerValue .status t == 0 && t.chk == 1 && registerValue .cvcfg t == 0x147) = true := by
  decide
/-- R62's example: the record goes, the units stay. -/
theorem test_sysClrerr :
    ran (cmd 0x0200 stuck) (fun t => t == (busy.logReply .written)) = true := by decide
/-- R66's example. -/
theorem test_cmClr : ran (cmd 0x1000 { busy with caseSeen := .upper }) (·.caseSeen == .none) = true := by decide
/-- R67's example: symbol 15 is the character 0. -/
theorem test_cmEnc : ran (cmd 0x110F State.reset) (·.oq == [0x30]) = true := by decide
/-- V-CM-19. -/
theorem test_cmEnc_full :
    ran (cmd 0x1101 full) (fun t => registerValue .status t == 0x0010000A && t.errinfo == 0x1101) = true := by
  decide
/-- R68's example: `Q`, and a digit unchanged. -/
theorem test_cmEncu : ran (cmd 0x1200 State.reset) (·.oq == [0x51]) = true := by decide
theorem test_cmEncu_digit : ran (cmd 0x1205 State.reset) (·.oq == [0x39]) = true := by decide
/-- V-CM-6's second command. -/
theorem test_cmDec :
    ran (cmd 0x134C { State.reset with oq := [0x0F] })
      (fun t => registerValue .status t == 0x00022000 && t.oq == [0x0F, 0x1F]) = true := by decide
/-- V-CM-9: case is checked before the alphabet. -/
theorem test_cmDec_mixed :
    ran (cmd 0x1342 busy) (fun t => t.err == .mixedCase && t.errinfo == 0x1342 && t.oq == busy.oq) = true := by
  decide
/-- V-CM-15's last command. -/
theorem test_cmCase :
    ran (cmd 0x1462 State.reset) (fun t => registerValue .status t == 0x00001000) = true := by decide
/-- V-CM-16. -/
theorem test_cmCase_mixed :
    ran (cmd 0x1461 { State.reset with caseSeen := .upper })
      (fun t => registerValue .status t == 0x00002004) = true := by decide
/-- R77's example. -/
theorem test_ckInit : ran (cmd 0x2000 { busy with chk := 0x15ccfe9f }) (·.chk == 1) = true := by decide
/-- R78's corner: every constant is selected. -/
theorem test_ckStep :
    ran (cmd 0x2100 { State.reset with chk := 0x3e000000 }) (·.chk == 0x14cd914b) = true := by decide
/-- V-CK-9. -/
theorem test_ckStep_range :
    ran (cmd 0x2120 { State.reset with chk := 0x27 })
      (fun t => t.err == .symRange && t.chk == 0x27) = true := by decide
/-- R79's example, in upper case. -/
theorem test_ckHrph : ran (cmd 0x2254 State.reset) (·.chk == 0x23) = true := by decide
/-- R80's example. -/
theorem test_ckHrpl :
    ran (cmd 0x2361 { State.reset with chk := 0x460 }) (·.chk == 0x8c01) = true := by decide
/-- R81's example. -/
theorem test_ckFin :
    ran (cmd 0x2400 { State.reset with chk := 0x8c01 })
      (fun t => t.ckres == 0x15ccfe9f && t.chk == 0x8c01) = true := by decide
/-- V-CK-8. -/
theorem test_ckVer : ran (cmd 0x2500 State.reset) (fun t => registerValue .status t == 0x100) = true := by
  decide
/-- V-CK-7: a failing verification clears `CKOK` though it errs. -/
theorem test_ckVer_fails :
    ran (cmd 0x2500 { State.reset with chk := 0, ckok := true })
      (fun t => registerValue .status t == 0x9 && t.errinfo == 0x2500) = true := by decide
/-- V-CV-12: the buffer is dropped, the queue kept. -/
theorem test_cvCfg :
    ran (cmd 0x3074 busy)
      (fun t => registerValue .cvcfg t == 0x74 && registerValue .cvstate t == 0 && t.oq == busy.oq) = true := by
  decide
/-- R88's example. -/
theorem test_cvCfgp :
    ran (cmd 0x3147 { busy with fromW := 5, toW := 8, pad := false })
      (fun t => registerValue .cvcfg t == 0x147) = true := by decide
/-- V-CV-7: eight groups of one bit, oldest bit first. -/
theorem test_cvPush :
    ran (cmd 0x32A5 { State.reset with toW := 1, pad := false })
      (fun t => t.oq == [1, 0, 1, 0, 0, 1, 0, 1] && registerValue .cvstate t == 0xA5) = true := by decide
/-- V-CV-14's second push. -/
theorem test_cvPush_range :
    ran (cmd 0x3280 { State.reset with fromW := 7, toW := 7, pad := false })
      (fun t => t.err == .convData && t.errinfo == 0x3280) = true := by decide
/-- R90's example (a). -/
theorem test_cvFlush :
    ran (cmd 0x3300 { busy with oq := [31] })
      (fun t => t.oq == [31, 28] && registerValue .cvstate t == 0) = true := by decide
/-- V-CV-3: non-zero leftover bits. -/
theorem test_cvFlush_nonzero :
    ran (cmd 0x3300 { State.reset with fromW := 5, toW := 8, pad := false, acc := 0x3FD, bits := 2 })
      (fun t => registerValue .status t == 8 && registerValue .cvstate t == 0x203FD) = true := by decide

/-! ## The bus and the string functions -/

/-- V-SYS-1: the registers after reset. -/
theorem test_reset_readout :
    reads 0x00 0x42333201 State.reset && reads 0x08 0 State.reset && reads 0x10 1 State.reset &&
    reads 0x18 0x147 State.reset && reads 0x20 0 State.reset && reads 0x24 0x10 State.reset = true := by decide
/-- V-CM-1's first read of `OQDATA`. -/
theorem test_queue_read : reads 0x20 0x171 busy = true := by decide
/-- V-BUS-8: a narrow read is refused and pops nothing. -/
theorem test_narrow_read :
    ran (event (.read 8 (busy.baseAddr + 0x20)) busy) (· == busy.logReply .busError) = true := by decide
/-- V-SYS-5: under the lock a command is discarded. -/
theorem test_lock : ran (cmd 0x2101 stuck) (· == stuck.logReply .written) = true := by decide

/-- A host string procedure, or a pure function, gives the string. -/
def gives (r : Except HostError Str) (s : Str) : Bool :=
  match r with
  | .ok t => t == s
  | .error _ => false

/-- The pure function on the first row of 95_test_vectors.md section 7. -/
theorem test_encodeString : gives (encodeString (ascii "a") []) (ascii "a12uel5l") = true := by
  decide +kernel
/-- The same row on the block, from a locked state. -/
theorem test_hostEncode : gives (hostEncode (ascii "a") [] stuck).1 (ascii "a12uel5l") = true := by
  decide +kernel
/-- A table with Bitcoin's two networks (45_host_witness.md R103). -/
def twoNetworks : NetworkTable := ⟨ascii "bc", []⟩

/-- 45_host_witness.md R103: the two networks every table holds, and Testnet's HRP. -/
theorem test_networks :
    twoNetworks.hrpOf .testnet = some [0x74, 0x62] ∧ twoNetworks.networkOf (ascii "BC") = some .mainnet := by decide
/-- An unvalidated version is no symbol: encoding refuses it instead of wrapping it (log 23). -/
theorem test_unvalidated_version :
    (match toAddress twoNetworks ⟨256, [0x75, 0x1e], .testnet⟩ with
      | .ok _ => none
      | .error e => some e) = some .symbolRange := by decide +kernel
/-- 95_test_vectors.md W1, the source's own example. -/
theorem test_toAddress :
    gives (toAddress twoNetworks
        ⟨0, [0x00, 0x00, 0x00, 0xc4, 0xa5, 0xca, 0xd4, 0x62] ++ [0x21, 0xb2, 0xa1, 0x87, 0x90, 0x5e, 0x52, 0x66] ++
            [0x36, 0x2b, 0x99, 0xd5, 0xe9, 0x1c, 0x6c, 0xe2] ++ [0x4d, 0x16, 0x5d, 0xab, 0x93, 0xe8, 0x64, 0x33],
          .testnet⟩)
      (ascii "tb1qqqqqp399et2xygdj5xreqhjjvcmzhxw4aywxecjdzew6hylgvsesrxh6hy") = true := by
  decide +kernel
/-- 30_encoding.md R55's examples. -/
theorem test_assemble :
    assemble [ascii "CV.CFGP 8, 5", ascii "CK.STEP 40", ascii "CM.DEC 'q' ; a character"] =
      some [0x3147, 0x2128, 0x1371] := by decide +kernel
theorem test_assemble_too_wide : assembleLine (ascii "CK.STEP 256") = none := by decide +kernel

end Sys2Proof.Tests
end

