-- ==== Sys2Proof/Tests/Witness.lean ====
section
/-! SUPPORT. For each statement with hypotheses a concrete case that meets all of them, and for a statement
of several clauses one for each, at the boundary of its range. -/

namespace Sys2Proof.Tests

open Sys2Proof.Machine Sys2Proof.Safety

/-- The block with one access still to be served. -/
def facing (e : BusEvent) (s : State) : State := s.setPending [e]

/-- The block about to serve a write of `w` to `CMD`. -/
def facingCmd (w : Word) (s : State) : State := facing (cmdWrite s w) s

/-! ## Encoding -/

theorem witness_DecodeInvertsEncode :
    (Instr.cvCfg 1 8).wellFormed = true ∧ (Instr.cvCfgp 8 1).wellFormed = true ∧
    (Instr.cmEnc 255).wellFormed = true := by decide

theorem witness_EncodeInvertsDecode :
    decode 0x3000 = .command (.cvCfg 1 1) ∧ decode 0x3177 = .command (.cvCfgp 8 8) ∧
    decode 0x21FF = .command (.ckStep 255) := by decide

/-- One value of each kind at the boundary of its range, and the illegal hypothesis of the second part. -/
theorem witness_IllegalEncodingsAreTheListedOnes :
    decode 0x00010000 = .illegal .highHalf ∧ decode 0x4000 = .illegal .reservedOp ∧
    decode 0xF0FF = .illegal .reservedOp ∧ decode 0x0300 = .illegal .reservedFn ∧
    decode 0x1500 = .illegal .reservedFn ∧ decode 0x2600 = .illegal .reservedFn ∧
    decode 0x3400 = .illegal .reservedFn ∧ decode 0x0001 = .illegal .operandNotZero ∧
    decode 0x3008 = .illegal .widthsBitSet ∧ decode 0x3180 = .illegal .widthsBitSet := by decide

theorem witness_AssemblerReadsBackEveryCommand : (Instr.cvCfgp 8 1).wellFormed = true := by decide

/-! ## The step and the bus -/

theorem witness_StepRunsTheDecodedCommand :
    decode 0x2105 = .command (.ckStep 5) ∧
    (facingCmd 0x2105 busy).pending = .write 32 ((facingCmd 0x2105 busy).baseAddr + 4) 0x2105 :: [] := by decide

/-- The queue's offset, and the others at both ends of the window, one read twice. -/
theorem witness_ReadsAnswerTheRegisterAndOnlyPopTheQueue :
    (0x20 < 256 ∧ 0x20 % 4 = 0 ∧
      (facing (.read 32 (busy.baseAddr + 0x20)) busy).pending = [.read 32 (busy.baseAddr + 0x20)]) ∧
    (0x00 < 256 ∧ 0x00 % 4 = 0 ∧ 0x00 ≠ 0x20 ∧
      (facing (.read 32 (busy.baseAddr + 0x00)) busy).pending = [.read 32 (busy.baseAddr + 0x00)]) ∧
    (0xFC < 256 ∧ 0xFC % 4 = 0 ∧ 0xFC ≠ 0x20 ∧
      (busy.setPending [.read 32 (busy.baseAddr + 0xFC), .read 32 (busy.baseAddr + 0xFC)]).pending =
        .read 32 (busy.baseAddr + 0xFC) :: [.read 32 (busy.baseAddr + 0xFC)]) := by decide

theorem witness_QueueReadPopsOneEntry : busy.oq = 0x71 :: [0x0F] ∧ State.reset.oq = [] := by decide

theorem witness_OnlyCommandWritesHaveAnEffect :
    (4 < 256 ∧ 4 % 4 = 0 ∧
      (facing (.write 32 (busy.baseAddr + 4) 0x2105) busy).pending =
        .write 32 ((facing (.write 32 (busy.baseAddr + 4) 0x2105) busy).baseAddr + 4) 0x2105 :: []) ∧
    (0xFC < 256 ∧ 0xFC % 4 = 0 ∧ 0xFC ≠ 4 ∧
      (facing (.write 32 (busy.baseAddr + 0xFC) 0x0100) busy).pending =
        .write 32 ((facing (.write 32 (busy.baseAddr + 0xFC) 0x0100) busy).baseAddr + 0xFC) 0x0100 :: []) := by
  decide

/-- A narrow access at an aligned offset, and a 32-bit access at offsets that are not. -/
theorem witness_RefusedAccessesHaveNoEffect :
    (0x20 < 256 ∧ (8 ≠ 32 ∨ 0x20 % 4 ≠ 0)) ∧ (0x0A < 256 ∧ (32 ≠ 32 ∨ 0x0A % 4 ≠ 0)) ∧
    (255 < 256 ∧ (32 ≠ 32 ∨ 255 % 4 ≠ 0)) := by decide

theorem witness_AccessOutsideTheWindowDoesNotReachTheBlock :
    busy.baseAddr - 1 < busy.baseAddr ∧ busy.baseAddr + 0xFF < busy.baseAddr + 0x100 ∧ busy.pending = [] := by
  decide

/-! ## Registers and reset -/

/-- A full queue of the greatest depth is within the invariant. -/
theorem witness_StatusAndConverterRegistersShowTheirFields :
    Inv busy ∧ Inv { stuck with oqDepth := 31, oq := List.replicate 31 0, toW := 8, bits := 7 } := by decide

theorem witness_OtherRegistersShowTheirValues :
    Inv { stuck with oqDepth := 31 } ∧ 0x28 ≤ 0x28 ∧ 0x28 ≤ 0xFC ∧ (0 < 6 ∧ 5 < 6) := by decide

theorem witness_SoftResetGivesEveryStateItsValue : busy.err = .noError ∧ stuck.err ≠ .noError := by decide

theorem witness_RegistersAfterReset : serve .reset stuck = .next stuck.resetBlock := by rfl

/-! ## Invariants and whole-machine rules -/

theorem witness_EveryStepKeepsTheInvariant :
    ∃ t, Inv (facingCmd 0x32FF busy) ∧ step (facingCmd 0x32FF busy) = .next t :=
  ⟨_, by decide, rfl⟩

/-- A locked state whose record is explained, and an unlocked one in which a command errs. -/
theorem witness_EveryStepKeepsTheErrorExplained :
    (∃ t, Inv (facingCmd 0x2101 stuck) ∧ errorExplained (facingCmd 0x2101 stuck) = true ∧
      step (facingCmd 0x2101 stuck) = .next t) ∧
    ∃ t, Inv (facingCmd 0x1120 busy) ∧ errorExplained (facingCmd 0x1120 busy) = true ∧
      step (facingCmd 0x1120 busy) = .next t :=
  ⟨⟨_, by decide, by decide, rfl⟩, ⟨_, by decide, by decide, rfl⟩⟩

theorem witness_FirstErrorIsNeverOverwritten :
    ∃ t, (facingCmd 0x0200 stuck).err ≠ .noError ∧ step (facingCmd 0x0200 stuck) = .next t :=
  ⟨_, by decide, rfl⟩

theorem witness_OnlyTheListedCommandsWriteChk :
    ∃ t, step (facingCmd 0x2105 busy) = .next t ∧ t.chk ≠ (facingCmd 0x2105 busy).chk :=
  ⟨_, rfl, by decide⟩

/-- `CKOK` set, `CASE` set, and the record cleared. -/
theorem witness_OnlyTheListedCommandsWriteTheFlags :
    (∃ t, step (facingCmd 0x2500 State.reset) = .next t ∧ t.ckok ≠ (facingCmd 0x2500 State.reset).ckok) ∧
    (∃ t, step (facingCmd 0x1474 State.reset) = .next t ∧
      t.caseSeen ≠ (facingCmd 0x1474 State.reset).caseSeen) ∧
    ∃ t, step (facingCmd 0x0200 stuck) = .next t ∧ (facingCmd 0x0200 stuck).err ≠ .noError ∧
      t.err = .noError :=
  ⟨⟨_, rfl, by decide⟩, ⟨_, rfl, by decide⟩, ⟨_, rfl, by decide, by decide⟩⟩

theorem witness_OnlyTheListedCommandsWriteConfigurationAndResult :
    (∃ t, step (facingCmd 0x3074 busy) = .next t ∧
      (t.fromW, t.toW, t.pad) ≠
        ((facingCmd 0x3074 busy).fromW, (facingCmd 0x3074 busy).toW, (facingCmd 0x3074 busy).pad)) ∧
    ∃ t, step (facingCmd 0x2400 busy) = .next t ∧ t.ckres ≠ (facingCmd 0x2400 busy).ckres :=
  ⟨⟨_, rfl, by decide⟩, ⟨_, rfl, by decide⟩⟩

theorem witness_QueueIsFirstInFirstOut :
    ∃ t, step (facing (.read 32 (busy.baseAddr + 0x20)) busy) = .next t ∧ t.oq = busy.oq.tail :=
  ⟨_, rfl, by decide⟩

theorem witness_CommandsCommitOrCapture : busy.err = .noError := by decide

theorem witness_LockDiscardsEveryOtherCommand :
    stuck.err ≠ .noError ∧ (0x00010100 : Word) ≠ 0x100 ∧ (0x00010100 : Word) ≠ 0x200 ∧
    (0xFC < 256 ∧ 0xFC % 4 = 0) ∧ stuck.oq = 0x71 :: [0x0F] := by decide

theorem witness_RecoveryKeepsTheUnits :
    ∃ t, Inv busy ∧ busy.err = .noError ∧ Instr.ckStep 32 ≠ .ckVer ∧ exec (.ckStep 32) busy = .next t ∧
      t.err ≠ .noError :=
  ⟨_, by decide, by decide, by decide, rfl, by decide⟩

/-- Each command of the family goes on from an unlocked state. -/
theorem witness_ChecksumCommandsFrame :
    (∃ t, exec .ckInit busy = .next t) ∧ (∃ t, exec .ckFin busy = .next t) ∧
    (∃ t, exec .ckVer busy = .next t) ∧ (∃ t, exec (.ckStep 31) busy = .next t) ∧
    (∃ t, exec (.ckHrph 33) busy = .next t) ∧ ∃ t, exec (.ckHrpl 126) busy = .next t :=
  ⟨⟨_, rfl⟩, ⟨_, rfl⟩, ⟨_, rfl⟩, ⟨_, rfl⟩, ⟨_, rfl⟩, ⟨_, rfl⟩⟩

theorem witness_CharsetCommandsFrame :
    (∃ t, exec .cmClr busy = .next t) ∧ (∃ t, exec (.cmEnc 31) busy = .next t) ∧
    (∃ t, exec (.cmEncu 0) busy = .next t) ∧ (∃ t, exec (.cmDec 0x6c) busy = .next t) ∧
    ∃ t, exec (.cmCase 0x7e) busy = .next t :=
  ⟨⟨_, rfl⟩, ⟨_, rfl⟩, ⟨_, rfl⟩, ⟨_, rfl⟩, ⟨_, rfl⟩⟩

theorem witness_ConverterCommandsFrame :
    (∃ t, exec .cvFlush busy = .next t) ∧ (∃ t, exec (.cvPush 255) busy = .next t) ∧
    (∃ t, exec (.cvCfg 1 8) busy = .next t) ∧ ∃ t, exec (.cvCfgp 8 1) busy = .next t :=
  ⟨⟨_, rfl⟩, ⟨_, rfl⟩, ⟨_, rfl⟩, ⟨_, rfl⟩⟩

/-! ## Commands -/

/-- A non-zero operand on a `none` command from an unlocked state, and a locked state. -/
theorem witness_NopAndClearError : busy.err = .noError ∧ (1 : Byte) ≠ 0 ∧ (255 : Byte) ≠ 0 := by decide

/-- `lower c = charOf v` at both ends of the alphabet and in upper case. -/
theorem witness_AlphabetAndItsInverse :
    symOf 0x71 = some 0 ∧ symOf 0x4c = some 31 ∧ (0x62 : Byte) ∈ ascii "1bioBIO" := by decide

/-- Both ends of the symbols with room for one entry, the first value above, and a full queue. -/
theorem witness_SymbolIsMappedToItsCharacter :
    busy.err = .noError ∧ stuck.err ≠ .noError ∧
    ((31 : Byte).toNat ≤ 31 ∧ busy.oq.length + 1 ≤ busy.oqDepth) ∧ 31 < (32 : Byte).toNat ∧
    ((0 : Byte).toNat ≤ 31 ∧ full.oqDepth < full.oq.length + 1) ∧ full.err = .noError := by decide

/-- The band's edges, a letter of the other case, a character outside the alphabet, a full queue, room. -/
theorem witness_CharacterIsMappedToItsSymbol :
    busy.err = .noError ∧ full.err = .noError ∧ stuck.err ≠ .noError ∧
    ¬(33 ≤ (32 : Byte).toNat ∧ (32 : Byte).toNat ≤ 126) ∧
    ¬(33 ≤ (127 : Byte).toNat ∧ (127 : Byte).toNat ≤ 126) ∧
    mixesCase busy 0x42 = true ∧
    (mixesCase busy 33 = false ∧ symOf 33 = none) ∧ (mixesCase busy 126 = false ∧ symOf 126 = none) ∧
    (mixesCase full 0x71 = false ∧ symOf 0x71 = some 0 ∧ full.oqDepth < full.oq.length + 1) ∧
    (mixesCase busy 0x6c = false ∧ symOf 0x6c = some 31 ∧ busy.oq.length + 1 ≤ busy.oqDepth) := by decide

theorem witness_CaseIsClearedAndCheckedWithoutMapping :
    busy.err = .noError ∧ stuck.err ≠ .noError ∧ (1 : Byte) ≠ 0 ∧
    ¬(33 ≤ (32 : Byte).toNat ∧ (32 : Byte).toNat ≤ 126) ∧
    (33 ≤ (0x42 : Byte).toNat ∧ (0x42 : Byte).toNat ≤ 126 ∧ mixesCase busy 0x42 = true) ∧
    (33 ≤ (33 : Byte).toNat ∧ (33 : Byte).toNat ≤ 126 ∧ mixesCase busy 33 = false) ∧
    (33 ≤ (126 : Byte).toNat ∧ (126 : Byte).toNat ≤ 126 ∧ mixesCase busy 126 = false) := by decide

theorem witness_ChecksumIsInitialisedAndFinished :
    busy.err = .noError ∧ stuck.err ≠ .noError ∧ (1 : Byte) ≠ 0 := by decide

theorem witness_ChecksumStepBitByBit : 0 < 30 ∧ 4 < 5 ∧ 29 < 30 := by decide

theorem witness_SymbolIsFolded :
    busy.err = .noError ∧ (31 : Byte).toNat ≤ 31 ∧ 31 < (32 : Byte).toNat ∧ stuck.err ≠ .noError := by decide

theorem witness_HrpCharacterIsFolded :
    busy.err = .noError ∧ (33 ≤ (33 : Byte).toNat ∧ (33 : Byte).toNat ≤ 126) ∧
    (33 ≤ (126 : Byte).toNat ∧ (126 : Byte).toNat ≤ 126) ∧
    ¬(33 ≤ (127 : Byte).toNat ∧ (127 : Byte).toNat ≤ 126) ∧ stuck.err ≠ .noError := by decide

theorem witness_ChecksumIsVerified :
    (State.reset.err = .noError ∧ State.reset.chk = 1) ∧ (busy.err = .noError ∧ busy.chk ≠ 1) ∧
    stuck.err ≠ .noError ∧ (1 : Byte) ≠ 0 := by decide

/-! ## Laws of the checksum -/

theorem witness_ChecksumStepIsLinear : ([1, 2] : List Symbol).length = ([3, 4] : List Symbol).length := by
  decide

/-- One and two places, a burst of four, and a swap, at the greatest length. -/
theorem witness_ChecksumDetectsErrors :
    ((List.replicate 90 (0 : Symbol)).length = (1 :: List.replicate 89 (0 : Symbol)).length ∧
      differences (List.replicate 90 0) (1 :: List.replicate 89 0) = 1) ∧
    differences (List.replicate 90 0) (1 :: List.replicate 88 0 ++ [31]) = 2 ∧
    ((List.replicate 86 (0 : Symbol) ++ [0, 0, 0, 0] ++ []).length ≤ 90 ∧
      ([0, 0, 0, 0] : List Symbol).length = ([1, 0, 0, 31] : List Symbol).length ∧
      ([0, 0, 0, 0] : List Symbol).length ≤ 4 ∧ ([0, 0, 0, 0] : List Symbol) ≠ [1, 0, 0, 31]) ∧
    ((List.replicate 88 (0 : Symbol) ++ [0, 1] ++ []).length ≤ 90 ∧ (0 : Symbol) ≠ 1) := by decide +kernel

theorem witness_CreatedChecksumVerifiesOnTheBlock :
    busy.err = .noError ∧ (ascii "Tb1").all inBand = true := by decide

/-! ## Converter -/

/-- Both ends of the widths, and an operand with each reserved bit. -/
theorem witness_ConverterIsConfigured :
    widthOk 1 = true ∧ widthOk 8 = true ∧ busy.err = .noError ∧ stuck.err ≠ .noError ∧
    (0x08 : Byte).getLsbD 3 = true ∧ (0x80 : Byte).getLsbD 7 = true ∧
    (0x3008 : Word) = (0x3000 : Word) ||| (0x08 : Byte).setWidth 32 ∧
    (0x3180 : Word) = (0x3100 : Word) ||| (0x80 : Byte).setWidth 32 := by decide

/-- A value just too large, a queue just too full, and room for exactly the outputs. -/
theorem witness_InputGroupIsAccepted :
    (Inv { busy with fromW := 7 } ∧ 2 ^ 7 ≤ (128 : Byte).toNat) ∧
    (Inv { full with bits := 4 } ∧ full.err = .noError ∧ (255 : Byte).toNat < 2 ^ full.fromW ∧
      full.oqDepth < full.oq.length + (4 + full.fromW) / full.toW) ∧
    (Inv { busy with oqDepth := 8, oq := [1, 2, 3, 4, 5, 6] } ∧ (255 : Byte).toNat < 2 ^ busy.fromW ∧
      6 + (busy.bits + busy.fromW) / busy.toW ≤ 8) ∧ stuck.err ≠ .noError := by decide

/-- `busy` with another input width. -/
def fromWidth (f : Nat) : State := { busy with fromW := f }

/-- `busy` with another input width, without padding, with a buffer. -/
def unpadded (f : Nat) (a : Buffer) : State := { busy with pad := false, fromW := f, acc := a }

/-- `full` with leftover bits. -/
def fullLeftover : State := { full with bits := 3 }

/-- No bits left; padding at `FROM` and just below it; a full queue. -/
theorem witness_ConversionIsCompleted_padded :
    (Inv State.reset ∧ State.reset.err = .noError ∧ State.reset.bits = 0) ∧
    (Inv (fromWidth 2) ∧ 0 < (fromWidth 2).bits ∧ (fromWidth 2).pad = true ∧
      (fromWidth 2).fromW ≤ (fromWidth 2).toW - (fromWidth 2).bits) ∧
    (Inv fullLeftover ∧ fullLeftover.pad = true ∧ fullLeftover.toW - fullLeftover.bits < fullLeftover.fromW ∧
      fullLeftover.oqDepth < fullLeftover.oq.length + 1) ∧
    (Inv (fromWidth 3) ∧ (fromWidth 3).toW - (fromWidth 3).bits < (fromWidth 3).fromW ∧
      (fromWidth 3).oq.length + 1 ≤ (fromWidth 3).oqDepth) :=
  ⟨by decide, by decide, by decide, by decide⟩

/-- Leftover bits at `FROM` and just below it, zero and not; the lock and an illegal operand. -/
theorem witness_ConversionIsCompleted_unpadded :
    (Inv (unpadded 3 0) ∧ 0 < (unpadded 3 0).bits ∧ (unpadded 3 0).pad = false ∧
      (unpadded 3 0).fromW ≤ (unpadded 3 0).bits) ∧
    (Inv (unpadded 4 0xFF) ∧ (unpadded 4 0xFF).bits < (unpadded 4 0xFF).fromW ∧
      (unpadded 4 0xFF).acc.toNat % 2 ^ (unpadded 4 0xFF).bits ≠ 0) ∧
    (Inv (unpadded 4 0xF8) ∧ (unpadded 4 0xF8).acc.toNat % 2 ^ (unpadded 4 0xF8).bits = 0) ∧
    stuck.err ≠ .noError ∧ (1 : Byte) ≠ 0 :=
  ⟨by decide, by decide, by decide, by decide⟩

/-- A conversion with room, and one that fails with room for what it pushes. -/
theorem witness_BlockConversionIsConvertBits :
    Inv busy ∧ busy.err = .noError ∧ widthOk 8 = true ∧ widthOk 1 = true ∧ widthOk 5 = true ∧
    (convertBits [0xFF] 8 5 true = .ok [31, 28] ∧ busy.oq.length + [31, 28].length ≤ busy.oqDepth) ∧
    (convertBits [31, 29] 5 8 false = .error .padNonzero ∧
      busy.oq.length + 5 * [31, 29].length / 8 ≤ busy.oqDepth) :=
  ⟨by decide, by decide, by decide, by decide, by decide, ⟨rfl, by decide⟩, ⟨rfl, by decide⟩⟩

theorem witness_SymbolsToBytesUndoesBytesToSymbols :
    (∀ x ∈ ([31, 28] : List Byte), x.toNat < 32) ∧ convertBits [31, 28] 5 8 false = .ok [0xFF] ∧
    convertBits [0xFF] 8 5 true = .ok [31, 28] :=
  ⟨by decide, rfl, rfl⟩

/-! ## The host's procedures -/

theorem witness_HostEncodeOnTheBlockIsEncode : Inv stuck := by decide
theorem witness_HostDecodeOnTheBlockIsDecode : Inv stuck := by decide
theorem witness_HostWitnessLayerOnTheBlock : Inv stuck := by decide

theorem witness_DecodeUndoesEncodeOfStrings : encodeString (ascii "a") [] = .ok (ascii "a12uel5l") := by decide +kernel

/-- A valid address in each case, one with a letter of the other case, and the lengths on both sides of each
bound. -/
theorem witness_UppercaseFormDecodesAlike :
    (decodeString (ascii "a12uel5l") = .ok (ascii "a", []) ∧ decodeString (ascii "A12UEL5L") = .ok (ascii "A", [])) ∧
    ((ascii "A12uel5l").any isUpperLetter = true ∧ (ascii "A12uel5l").any isLowerLetter = true) ∧
    ((ascii "a12uel5").length < 8 ∧ 90 < (List.replicate 91 (0x71 : Byte)).length) ∧
    ((8 ≤ 8 ∧ 8 ≤ 90) ∧ (8 ≤ 90 ∧ 90 ≤ 90)) := by decide +kernel

/-- An HRP character and a data character. -/
theorem witness_OneCharacterChangeIsRejected :
    decodeString (ascii "a12uel5l") = .ok (ascii "a", []) ∧
    ((ascii "a12uel5l")[0]? = some 0x61 ∧ 0 ≠ (ascii "a").length ∧ lower 0x31 ≠ lower 0x61) ∧
    ((ascii "a12uel5l")[7]? = some 0x6c ∧ 7 ≠ (ascii "a").length ∧ lower 0x6d ≠ lower 0x6c ∧
      (0x6d : Byte) ≠ separator) :=
  ⟨by decide +kernel, by decide, by decide⟩

/-- The case that the rule as worded does not cover: the only letter's case changed. -/
theorem witness_EveryOneCharacterChangeIsRejected :
    decodeString (ascii "a19267542334") = .ok (ascii "a", [5, 10, 26, 30]) ∧
    (ascii "a19267542334")[0]? = some 0x61 ∧ 0 ≠ (ascii "a").length ∧ (0x41 : Byte) ≠ 0x61 :=
  ⟨by decide +kernel, by decide, by decide, by decide⟩

theorem witness_EncodeSucceedsExactlyOnValidInput :
    encodeString (ascii "A") [] = .ok (ascii "A12UEL5L") := by decide +kernel

theorem witness_AddressOfAWitnessProgramRoundTrips :
    twoNetworks.Valid ∧ Network.testnet ∈ twoNetworks.entries.map Prod.fst ∧
    WitnessProgram.new acceptAll 16 [0x75, 0x1e] .testnet = .ok ⟨16, [0x75, 0x1e], .testnet⟩ :=
  ⟨by decide, by decide, rfl⟩

end Sys2Proof.Tests
end

section
/-! PROOFS. What a command and a step can do, said once as two inductive relations (`CommandEffect`,
`StepEffect`). The invariant and the writer rules of 10_state.md are case splits over them. -/

namespace Sys2Proof.Machine

open Sys2Proof.Safety

/-! ## No rule raises the code 0 -/

/-- Sequencing keeps an error code out when neither part raises it. -/
theorem bind_ne_error {α β : Type} {x : Except ErrCode α} {f : α → Except ErrCode β} {e : ErrCode}
    (hx : x ≠ .error e) (hf : ∀ a, f a ≠ .error e) : (x >>= f) ≠ .error e := by
  cases x with
  | ok a => exact hf a
  | error e' => exact fun h => hx (congrArg _ (Except.error.inj h))

theorem ok_ne_error {α : Type} (a : α) (e : ErrCode) : (Except.ok a : Except ErrCode α) ≠ .error e :=
  nofun

theorem symOperand_ne_noError (d : Byte) : symOperand d ≠ .error .noError :=
  fun h => nomatch (symOperand_eq_error.1 h).2

theorem charOperand_ne_noError (d : Byte) : charOperand d ≠ .error .noError :=
  fun h => nomatch (charOperand_eq_error.1 h).2

theorem valueOperand_ne_noError (f : Nat) (d : Byte) : valueOperand f d ≠ .error .noError :=
  fun h => nomatch (valueOperand_eq_error.1 h).2

theorem dataSymbol_ne_noError (c : Byte) : dataSymbol c ≠ .error .noError :=
  fun h => nomatch (dataSymbol_eq_error.1 h).2

theorem trackCase_ne_noError (k : CaseSeen) (c : Byte) : trackCase k c ≠ .error .noError :=
  fun h => nomatch (trackCase_eq_error.1 h).2.2.2

theorem push_ne_noError (s : State) (outs : List Byte) : s.push outs ≠ .error .noError :=
  fun h => nomatch (State.push_eq_error.1 h).2

theorem finalGroups_ne_noError (s : State) : finalGroups s ≠ .error .noError := by
  unfold finalGroups
  cases s.pad <;> simp only [if_true, Bool.false_eq_true, if_false]
  · split
    · simp
    · split <;> simp
  · split
    · split <;> simp
    · simp

theorem encodeSymbol_ne_noError (fold : Byte → Byte) (d : Byte) (s : State) :
    encodeSymbol fold d s ≠ .error .noError :=
  bind_ne_error (symOperand_ne_noError d) fun _ => push_ne_noError s _

theorem decodeChar_ne_noError (d : Byte) (s : State) : decodeChar d s ≠ .error .noError :=
  bind_ne_error (charOperand_ne_noError d) fun c =>
    bind_ne_error (trackCase_ne_noError _ c) fun _ =>
      bind_ne_error (dataSymbol_ne_noError c) fun _ =>
        bind_ne_error (push_ne_noError s _) fun _ => ok_ne_error _ _

theorem checkChar_ne_noError (d : Byte) (s : State) : checkChar d s ≠ .error .noError :=
  bind_ne_error (charOperand_ne_noError d) fun c =>
    bind_ne_error (trackCase_ne_noError _ c) fun _ => ok_ne_error _ _

theorem foldSymbol_ne_noError (d : Byte) (s : State) : foldSymbol d s ≠ .error .noError :=
  bind_ne_error (symOperand_ne_noError d) fun _ => ok_ne_error _ _

theorem foldHrp_ne_noError (part : Byte → Symbol) (d : Byte) (s : State) :
    foldHrp part d s ≠ .error .noError :=
  bind_ne_error (charOperand_ne_noError d) fun _ => ok_ne_error _ _

theorem pushGroup_ne_noError (d : Byte) (s : State) : pushGroup d s ≠ .error .noError :=
  bind_ne_error (valueOperand_ne_noError _ d) fun _ =>
    bind_ne_error (push_ne_noError s _) fun _ => ok_ne_error _ _

theorem flushGroups_ne_noError (s : State) : flushGroups s ≠ .error .noError :=
  bind_ne_error (finalGroups_ne_noError s) fun _ =>
    bind_ne_error (push_ne_noError s _) fun _ => ok_ne_error _ _

/-! ## What a command can do -/

/-- Everything command `i` can make of the state `s`: be discarded under the lock, capture an error, or
commit the effect of its own rule (40_control.md to 43_converter.md). -/
inductive CommandEffect (s : State) : Instr → State → Prop
  | discarded {i : Instr} (hlock : s.err ≠ .noError) (hrst : i ≠ .sysRst) (hclr : i ≠ .sysClrerr) :
      CommandEffect s i s
  | raised {i : Instr} {e : ErrCode} (hfree : s.err = .noError) (he : e ≠ .noError) (hrst : i ≠ .sysRst)
      (hclr : i ≠ .sysClrerr) : CommandEffect s i (s.capture e (encode i))
  | verifyFailed (hfree : s.err = .noError) (hchk : s.chk ≠ finalConst) :
      CommandEffect s .ckVer ((s.setCkok false).capture .checksum (encode .ckVer))
  | nop : CommandEffect s .nop s
  | sysRst : CommandEffect s .sysRst s.resetBlock
  | sysClrerr : CommandEffect s .sysClrerr s.clearError
  | cmClr (hfree : s.err = .noError) : CommandEffect s .cmClr (s.setCase .none)
  | cmEnc {v : Byte} (hfree : s.err = .noError) (hv : v.toNat ≤ 31) (hroom : s.oq.length + 1 ≤ s.oqDepth) :
      CommandEffect s (.cmEnc v) (s.enqueue [charOf (v.setWidth 5)])
  | cmEncu {v : Byte} (hfree : s.err = .noError) (hv : v.toNat ≤ 31) (hroom : s.oq.length + 1 ≤ s.oqDepth) :
      CommandEffect s (.cmEncu v) (s.enqueue [upper (charOf (v.setWidth 5))])
  | cmDec {c : Byte} {k : CaseSeen} {v : Symbol} (hfree : s.err = .noError) (hband : inBand c = true)
      (hcase : trackCase s.caseSeen c = .ok k) (hsym : symOf c = some v)
      (hroom : s.oq.length + 1 ≤ s.oqDepth) :
      CommandEffect s (.cmDec c) ((s.enqueue [v.setWidth 8]).setCase k)
  | cmCase {c : Byte} {k : CaseSeen} (hfree : s.err = .noError) (hband : inBand c = true)
      (hcase : trackCase s.caseSeen c = .ok k) : CommandEffect s (.cmCase c) (s.setCase k)
  | ckInit (hfree : s.err = .noError) : CommandEffect s .ckInit (s.setChk chkInit)
  | ckStep {v : Byte} (hfree : s.err = .noError) (hv : v.toNat ≤ 31) :
      CommandEffect s (.ckStep v) (s.setChk (stepChk s.chk (v.setWidth 5)))
  | ckHrph {c : Byte} (hfree : s.err = .noError) (hband : inBand c = true) :
      CommandEffect s (.ckHrph c) (s.setChk (stepChk s.chk (hrpHigh c)))
  | ckHrpl {c : Byte} (hfree : s.err = .noError) (hband : inBand c = true) :
      CommandEffect s (.ckHrpl c) (s.setChk (stepChk s.chk (hrpLow c)))
  | ckFin (hfree : s.err = .noError) :
      CommandEffect s .ckFin (s.setCkres (stepSixZeros s.chk ^^^ finalConst))
  | ckVer (hfree : s.err = .noError) (hchk : s.chk = finalConst) : CommandEffect s .ckVer (s.setCkok true)
  | cvCfg {f t : Nat} (hfree : s.err = .noError) :
      CommandEffect s (.cvCfg f t) ((s.setConfig f t false).setBuffer 0 0)
  | cvCfgp {f t : Nat} (hfree : s.err = .noError) :
      CommandEffect s (.cvCfgp f t) ((s.setConfig f t true).setBuffer 0 0)
  | cvPush {x : Byte} (hfree : s.err = .noError) (hx : x >>> s.fromW = 0)
      (hroom : s.oq.length + (pushed x s).1.length ≤ s.oqDepth) :
      CommandEffect s (.cvPush x)
        ((s.enqueue (pushed x s).1).setBuffer (bufferAfter s.acc s.fromW x) (pushed x s).2)
  | cvFlush {outs : List Byte} (hfree : s.err = .noError) (houts : finalGroups s = .ok outs)
      (hroom : s.oq.length + outs.length ≤ s.oqDepth) :
      CommandEffect s .cvFlush ((s.enqueue outs).setBuffer 0 0)

/-- A command that runs a rule is discarded, captures an error, or has the effect its rule commits. -/
theorem CommandEffect.of_runRule {i : Instr} {rule : State → Except ErrCode State} {s t : State}
    (hrst : i ≠ .sysRst) (hclr : i ≠ .sysClrerr) (hne : rule s ≠ .error .noError)
    (hok : ∀ u, s.err = .noError → rule s = .ok u → CommandEffect s i u) (h : runRule i rule s = .next t) :
    CommandEffect s i t := by
  obtain ⟨hlock, rfl⟩ | ⟨hfree, hr⟩ | ⟨hfree, e, hr, rfl⟩ := runRule_eq_next.1 h
  · exact .discarded hlock hrst hclr
  · exact hok t hfree hr
  · exact .raised hfree (fun he => hne (he ▸ hr)) hrst hclr

/-- The same for a command whose rule always commits. -/
theorem CommandEffect.of_runRule_ok {i : Instr} (rule : State → Except ErrCode State) {s t u : State}
    (hrst : i ≠ .sysRst) (hclr : i ≠ .sysClrerr) (hr : rule s = .ok u)
    (hu : s.err = .noError → CommandEffect s i u) (h : runRule i rule s = .next t) : CommandEffect s i t :=
  .of_runRule hrst hclr (hr ▸ ok_ne_error u _)
    (fun _ hfree hv => Except.ok.inj (hr.symm.trans hv) ▸ hu hfree) h

theorem execCkVer_effect {s t : State} (h : execCkVer s = .next t) : CommandEffect s .ckVer t := by
  unfold execCkVer at h
  by_cases hfree : s.err = .noError
  · rw [unlessLocked_of_unlocked hfree] at h
    by_cases hchk : s.chk = finalConst
    · simp only [checksumOk, hchk, decide_true, if_true, Host.Outcome.next.injEq] at h
      exact h ▸ .ckVer hfree hchk
    · simp only [checksumOk, hchk, decide_false, Bool.false_eq_true, if_false, raise,
        Host.Outcome.next.injEq] at h
      exact h ▸ .verifyFailed hfree hchk
  · rw [unlessLocked_of_locked hfree, Host.Outcome.next.injEq] at h
    exact h ▸ .discarded hfree nofun nofun

/-- Whatever a command leaves is one of the listed effects. -/
theorem exec_effect {i : Instr} {s t : State} (h : exec i s = .next t) : CommandEffect s i t := by
  cases i with
  | nop => exact .of_runRule_ok .ok nofun nofun rfl (fun _ => .nop) h
  | sysRst => exact Host.Outcome.next.inj h ▸ .sysRst
  | sysClrerr => exact Host.Outcome.next.inj h ▸ .sysClrerr
  | cmClr => exact .of_runRule_ok clearCase nofun nofun rfl .cmClr h
  | cmEnc v =>
    refine .of_runRule nofun nofun (encodeSymbol_ne_noError _ v s) (fun u hf hu => ?_) h
    obtain ⟨hv, hroom, rfl⟩ := encodeSymbol_eq_ok.1 hu
    exact .cmEnc hf hv hroom
  | cmEncu v =>
    refine .of_runRule nofun nofun (encodeSymbol_ne_noError _ v s) (fun u hf hu => ?_) h
    obtain ⟨hv, hroom, rfl⟩ := encodeSymbol_eq_ok.1 hu
    exact .cmEncu hf hv hroom
  | cmDec c =>
    refine .of_runRule nofun nofun (decodeChar_ne_noError c s) (fun u hf hu => ?_) h
    obtain ⟨hband, k, hk, v, hv, hroom, rfl⟩ := decodeChar_eq_ok.1 hu
    exact .cmDec hf hband hk hv hroom
  | cmCase c =>
    refine .of_runRule nofun nofun (checkChar_ne_noError c s) (fun u hf hu => ?_) h
    obtain ⟨hband, k, hk, rfl⟩ := checkChar_eq_ok.1 hu
    exact .cmCase hf hband hk
  | ckInit => exact .of_runRule_ok initChecksum nofun nofun rfl .ckInit h
  | ckStep v =>
    refine .of_runRule nofun nofun (foldSymbol_ne_noError v s) (fun u hf hu => ?_) h
    obtain ⟨hv, rfl⟩ := foldSymbol_eq_ok.1 hu
    exact .ckStep hf hv
  | ckHrph c =>
    refine .of_runRule nofun nofun (foldHrp_ne_noError _ c s) (fun u hf hu => ?_) h
    obtain ⟨hband, rfl⟩ := foldHrp_eq_ok.1 hu
    exact .ckHrph hf hband
  | ckHrpl c =>
    refine .of_runRule nofun nofun (foldHrp_ne_noError _ c s) (fun u hf hu => ?_) h
    obtain ⟨hband, rfl⟩ := foldHrp_eq_ok.1 hu
    exact .ckHrpl hf hband
  | ckFin => exact .of_runRule_ok finishChecksum nofun nofun rfl .ckFin h
  | ckVer => exact execCkVer_effect h
  | cvCfg f t => exact .of_runRule_ok (configure f t false) nofun nofun rfl .cvCfg h
  | cvCfgp f t => exact .of_runRule_ok (configure f t true) nofun nofun rfl .cvCfgp h
  | cvPush x =>
    refine .of_runRule nofun nofun (pushGroup_ne_noError x s) (fun u hf hu => ?_) h
    obtain ⟨hx, hroom, rfl⟩ := pushGroup_eq_ok.1 hu
    exact .cvPush hf hx hroom
  | cvFlush =>
    refine .of_runRule nofun nofun (flushGroups_ne_noError s) (fun u hf hu => ?_) h
    obtain ⟨outs, houts, hroom, rfl⟩ := flushGroups_eq_ok.1 hu
    exact .cvFlush hf houts hroom

/-! ## The window's map, read backwards -/

theorem registerAt_eq_cmd {off : Nat} : registerAt off = .cmd ↔ off = 0x04 := by
  unfold registerAt
  split <;> simp_all

theorem registerAt_eq_oqdata {off : Nat} : registerAt off = .oqdata ↔ off = 0x20 := by
  unfold registerAt
  split <;> simp_all

theorem registerAt_of_reserved {off : Nat} (h : 0x28 ≤ off) : registerAt off = .reserved := by
  unfold registerAt
  split <;> simp_all

/-- An address in the window is the base address and its offset. -/
theorem eq_baseAddr_add_offsetOf {s : State} {addr : Nat} (h : inWindow s addr = true) :
    addr = s.baseAddr + offsetOf addr := by
  have hpage : addr / 256 = s.basePage := of_decide_eq_true h
  simp only [State.baseAddr, offsetOf, Config.windowSize]
  omega

/-! ## Serving an access of the window -/

theorem serve_read_window (s : State) {off : Nat} (hoff : off < 256) (halign : off % 4 = 0) :
    serve (.read 32 (s.baseAddr + off)) s =
      .next ((afterRead (registerAt off) s).logReply (.data (registerValue (registerAt off) s))) := by
  have hadm : admitted 32 (s.baseAddr + off) = true :=
    admitted_eq_true.2 ⟨rfl, (offsetOf_baseAddr_add s hoff).symm ▸ halign⟩
  simp [serve, reach, busRead, inWindow_baseAddr_add s hoff, hadm, offsetOf_baseAddr_add s hoff]

theorem serve_write_window (s : State) (v : Word) {off : Nat} (hoff : off < 256) (halign : off % 4 = 0) :
    serve (.write 32 (s.baseAddr + off) v) s =
      if off = 0x04 then answered .written (issue v s) else .next (s.logReply .written) := by
  have hadm : admitted 32 (s.baseAddr + off) = true :=
    admitted_eq_true.2 ⟨rfl, (offsetOf_baseAddr_add s hoff).symm ▸ halign⟩
  simp [serve, reach, busWrite, inWindow_baseAddr_add s hoff, hadm, offsetOf_baseAddr_add s hoff,
    registerAt_eq_cmd]

theorem afterRead_of_ne {r : Register} (h : r ≠ .oqdata) (s : State) : afterRead r s = s := if_neg h

/-! ## What a step can do -/

/-- Everything a step can make of the state `s`: hold it, answer an access that has no effect on the block,
pop the queue, reset, capture an illegal encoding, or run a command. -/
inductive StepEffect (s : State) : State → Prop
  | idle (hpend : s.pending = []) : StepEffect s s
  | answeredOnly {e : BusEvent} {rest : List BusEvent} {r : Reply} (hpend : s.pending = e :: rest) :
      StepEffect s ((s.setPending rest).logReply r)
  | popped {rest : List BusEvent} (hpend : s.pending = .read 32 (s.baseAddr + 0x20) :: rest) :
      StepEffect s ((s.setPending rest).dropHead.logReply (.data (oqdataWord s)))
  | reset {rest : List BusEvent} (hpend : s.pending = .reset :: rest) :
      StepEffect s (s.setPending rest).resetBlock
  | illegal {w : Word} {why : Illegal} {rest : List BusEvent} (hpend : s.pending = cmdWrite s w :: rest)
      (hdec : decode w = .illegal why) (hfree : s.err = .noError) :
      StepEffect s (((s.setPending rest).capture .illegal w).logReply .written)
  | command {w : Word} {i : Instr} {rest : List BusEvent} {u : State}
      (hpend : s.pending = cmdWrite s w :: rest) (hdec : decode w = .command i)
      (heff : CommandEffect (s.setPending rest) i u) : StepEffect s (u.logReply .written)

/-- The effect of a write to `CMD` (40_control.md R57). -/
theorem StepEffect.of_issue {s u : State} {w : Word} {rest : List BusEvent}
    (hpend : s.pending = cmdWrite s w :: rest) (h : issue w (s.setPending rest) = .next u) :
    StepEffect s (u.logReply .written) := by
  unfold issue at h
  split at h
  · rename_i i hdec
    exact .command hpend hdec (exec_effect h)
  · rename_i why hdec
    by_cases hfree : s.err = .noError
    · rw [runIllegal_of_unlocked (by simpa using hfree), Host.Outcome.next.injEq] at h
      exact h ▸ .illegal hpend hdec hfree
    · rw [runIllegal_of_locked (by simpa using hfree), Host.Outcome.next.injEq] at h
      exact h ▸ .answeredOnly hpend

/-- Whatever a step leaves is one of the listed effects. -/
theorem step_effect {s t : State} (h : step s = .next t) : StepEffect s t := by
  obtain ⟨hpend, rfl⟩ | ⟨e, rest, hpend, hserve⟩ := step_eq_next h
  · exact .idle hpend
  obtain ⟨rfl, rfl⟩ | rfl | rfl | ⟨addr, rfl, hwin, -, rfl⟩ |
      ⟨addr, w, u, rfl, hwin, -, hreg, hu, rfl⟩ := serve_eq_next hserve
  · exact .reset hpend
  · exact .answeredOnly hpend
  · exact .answeredOnly hpend
  · have haddr : addr = s.baseAddr + offsetOf addr := eq_baseAddr_add_offsetOf hwin
    by_cases hreg : registerAt (offsetOf addr) = .oqdata
    · rw [hreg]
      rw [registerAt_eq_oqdata.1 hreg] at haddr
      subst haddr
      exact .popped hpend
    · rw [afterRead_of_ne hreg]
      exact .answeredOnly hpend
  · have haddr : addr = s.baseAddr + offsetOf addr := eq_baseAddr_add_offsetOf hwin
    rw [registerAt_eq_cmd.1 hreg] at haddr
    subst haddr
    exact .of_issue hpend hu

end Sys2Proof.Machine
end

section
/-! PROOFS. A decoded command is well formed, and every step keeps the invariant (10_state.md R19). -/

namespace Sys2Proof

/-! ## Decoded commands are well formed -/

theorem noneForm_eq_command {i j : Instr} {d : Byte} : noneForm i d = .command j ↔ d = 0 ∧ i = j := by
  unfold noneForm
  split <;> simp_all

theorem widthsForm_eq_command {make : Nat → Nat → Instr} {d : Byte} {j : Instr} :
    widthsForm make d = .command j ↔
      (d.getLsbD 7 || d.getLsbD 3) = false ∧ make (fromOfOperand d) (toOfOperand d) = j := by
  unfold widthsForm
  cases d.getLsbD 7 || d.getLsbD 3 <;> simp

theorem widthOk_eq_true {n : Nat} : widthOk n = true ↔ 1 ≤ n ∧ n ≤ 8 := by
  rw [widthOk, Bool.and_eq_true, decide_eq_true_iff, decide_eq_true_iff]
  rfl

/-- A 3-bit field plus 1 is a width (30_encoding.md R50). -/
theorem widthOk_toNat_succ (b : BitVec 3) : widthOk (b.toNat + 1) = true := by
  have hb : b.toNat < 2 ^ 3 := b.isLt
  exact widthOk_eq_true.2 ⟨by omega, by omega⟩

theorem noneForm_wellFormed {i j : Instr} {d : Byte} (hi : i.wellFormed = true)
    (h : noneForm i d = .command j) : j.wellFormed = true :=
  (noneForm_eq_command.1 h).2 ▸ hi

theorem widthsForm_wellFormed {make : Nat → Nat → Instr} {d : Byte} {j : Instr}
    (hmake : ∀ f t, (make f t).wellFormed = (widthOk f && widthOk t))
    (h : widthsForm make d = .command j) : j.wellFormed = true := by
  obtain ⟨-, rfl⟩ := widthsForm_eq_command.1 h
  rw [hmake, Bool.and_eq_true]
  exact ⟨widthOk_toNat_succ _, widthOk_toNat_succ _⟩

theorem decodeSys_wellFormed {fn : Nat} {d : Byte} {i : Instr} (h : decodeSys fn d = .command i) :
    i.wellFormed = true := by
  unfold decodeSys at h
  split at h
  · exact noneForm_wellFormed rfl h
  · exact noneForm_wellFormed rfl h
  · exact noneForm_wellFormed rfl h
  · exact nomatch h

theorem decodeCm_wellFormed {fn : Nat} {d : Byte} {i : Instr} (h : decodeCm fn d = .command i) :
    i.wellFormed = true := by
  unfold decodeCm at h
  split at h
  · exact noneForm_wellFormed rfl h
  · exact Decoded.command.inj h ▸ rfl
  · exact Decoded.command.inj h ▸ rfl
  · exact Decoded.command.inj h ▸ rfl
  · exact Decoded.command.inj h ▸ rfl
  · exact nomatch h

theorem decodeCk_wellFormed {fn : Nat} {d : Byte} {i : Instr} (h : decodeCk fn d = .command i) :
    i.wellFormed = true := by
  unfold decodeCk at h
  split at h
  · exact noneForm_wellFormed rfl h
  · exact Decoded.command.inj h ▸ rfl
  · exact Decoded.command.inj h ▸ rfl
  · exact Decoded.command.inj h ▸ rfl
  · exact noneForm_wellFormed rfl h
  · exact noneForm_wellFormed rfl h
  · exact nomatch h

theorem decodeCv_wellFormed {fn : Nat} {d : Byte} {i : Instr} (h : decodeCv fn d = .command i) :
    i.wellFormed = true := by
  unfold decodeCv at h
  split at h
  · exact widthsForm_wellFormed (fun _ _ => rfl) h
  · exact widthsForm_wellFormed (fun _ _ => rfl) h
  · exact Decoded.command.inj h ▸ rfl
  · exact noneForm_wellFormed rfl h
  · exact nomatch h

/-- What a `CMD` value decodes to is a well-formed command (30_encoding.md R52). -/
theorem decode_wellFormed {w : Word} {i : Instr} (h : decode w = .command i) : i.wellFormed = true := by
  unfold decode at h
  split at h
  · exact nomatch h
  · unfold decodeCommandWord at h
    dsimp only at h
    split at h
    · exact decodeSys_wellFormed h
    · exact decodeCm_wellFormed h
    · exact decodeCk_wellFormed h
    · exact decodeCv_wellFormed h
    · exact nomatch h

end Sys2Proof

namespace Sys2Proof.Machine

open Sys2Proof.Safety

/-! ## The named updates keep the invariant -/

section

variable {s : State}

theorem inv_capture (hs : Inv s) {e : ErrCode} (he : e ≠ .noError) (w : Word) : Inv (s.capture e w) := by
  obtain ⟨hdepth, hfrom, hto, hbits, hoq, -⟩ := hs
  exact ⟨hdepth, hfrom, hto, hbits, hoq, fun h => absurd h he⟩

theorem inv_clearError (hs : Inv s) : Inv s.clearError := by
  obtain ⟨hdepth, hfrom, hto, hbits, hoq, -⟩ := hs
  exact ⟨hdepth, hfrom, hto, hbits, hoq, fun _ => rfl⟩

theorem inv_resetBlock (hs : Inv s) : Inv s.resetBlock := by
  obtain ⟨hdepth, -⟩ := hs
  exact ⟨hdepth, ⟨by simp, by simp⟩, ⟨by simp, by simp⟩, by simp, by simp, fun _ => rfl⟩

theorem inv_dropHead (hs : Inv s) : Inv s.dropHead := by
  obtain ⟨hdepth, hfrom, hto, hbits, hoq, herr⟩ := hs
  have htail : s.oq.tail.length ≤ s.oqDepth := by
    rw [List.length_tail]
    omega
  exact ⟨hdepth, hfrom, hto, hbits, htail, herr⟩

theorem inv_enqueue (hs : Inv s) {outs : List Byte} (hroom : s.oq.length + outs.length ≤ s.oqDepth) :
    Inv (s.enqueue outs) := by
  obtain ⟨hdepth, hfrom, hto, hbits, -, herr⟩ := hs
  exact ⟨hdepth, hfrom, hto, hbits, by simpa using hroom, herr⟩

theorem inv_setBuffer (hs : Inv s) (a : Buffer) {b : Nat} (hb : b < s.toW) : Inv (s.setBuffer a b) := by
  obtain ⟨hdepth, hfrom, hto, -, hoq, herr⟩ := hs
  exact ⟨hdepth, hfrom, hto, hb, hoq, herr⟩

theorem inv_configure (hs : Inv s) {f t : Nat} (hf : widthOk f = true) (ht : widthOk t = true) (pad : Bool) :
    Inv ((s.setConfig f t pad).setBuffer 0 0) := by
  obtain ⟨hdepth, -, -, -, hoq, herr⟩ := hs
  exact ⟨hdepth, widthOk_eq_true.1 hf, widthOk_eq_true.1 ht, (widthOk_eq_true.1 ht).1, hoq, herr⟩

/-- The emission loop of `CV.PUSH` leaves fewer than `TO` bits (43_converter.md R89). -/
theorem pushed_bits_lt (hto : 0 < s.toW) (x : Byte) : (pushed x s).2 < s.toW := by
  rw [pushed, emitGroups_bits hto _ _ _ le_rfl]
  exact Nat.mod_lt _ hto

end

/-! ## Commands and steps keep the invariant -/

theorem CommandEffect.inv {s t : State} {i : Instr} (heff : CommandEffect s i t) (hi : i.wellFormed = true)
    (hs : Inv s) : Inv t := by
  have ⟨_, _, ⟨hto, _⟩, _⟩ := hs
  cases heff with
  | discarded => exact hs
  | raised _ he => exact inv_capture hs he _
  | verifyFailed =>
    have hok : Inv (s.setCkok false) := hs
    exact inv_capture hok (e := .checksum) nofun _
  | nop => exact hs
  | sysRst => exact inv_resetBlock hs
  | sysClrerr => exact inv_clearError hs
  | cmEnc _ _ hroom => exact inv_enqueue hs hroom
  | cmEncu _ _ hroom => exact inv_enqueue hs hroom
  | cmDec _ _ _ _ hroom => exact inv_enqueue hs hroom
  | cmClr | cmCase | ckInit | ckStep | ckHrph | ckHrpl | ckFin | ckVer => exact hs
  | cvCfg =>
    obtain ⟨hf, ht⟩ := (Bool.and_eq_true _ _).mp hi
    exact inv_configure hs hf ht _
  | cvCfgp =>
    obtain ⟨hf, ht⟩ := (Bool.and_eq_true _ _).mp hi
    exact inv_configure hs hf ht _
  | cvPush _ _ hroom => exact inv_setBuffer (inv_enqueue hs hroom) _ (pushed_bits_lt hto _)
  | cvFlush _ _ hroom => exact inv_setBuffer (inv_enqueue hs hroom) _ hto

theorem StepEffect.inv {s t : State} (heff : StepEffect s t) (hs : Inv s) : Inv t := by
  have hserved (rest : List BusEvent) : Inv (s.setPending rest) := hs
  cases heff with
  | idle => exact hs
  | answeredOnly => exact hs
  | popped => exact inv_dropHead (hserved _)
  | reset => exact inv_resetBlock (hserved _)
  | @illegal w _ rest => exact inv_capture (hserved rest) (e := .illegal) nofun w
  | command _ hdec hcmd => exact hcmd.inv (decode_wellFormed hdec) (hserved _)

/-- Settles O18, by cases on what a step can do and, for a command, on what the command can do. -/
theorem everyStepKeepsTheInvariant : Obligations.EveryStepKeepsTheInvariant :=
  fun _ _ hs hstep => (step_effect hstep).inv hs

end Sys2Proof.Machine
end

section
/-! PROOFS. Which commands write which part of the state, and how the queue moves (10_state.md R24, R26, R31,
R32). -/

namespace Sys2Proof.Machine

open Sys2Proof.Safety

/-! ## A view of the state that only commands and reset change -/

/-- A view of the state that shows nothing of the host's side, the queue and the error record. -/
structure ViewsUnits {α : Type} (view : State → α) : Prop where
  setPending : ∀ s es, view (s.setPending es) = view s := by intros; rfl
  logReply : ∀ s r, view (s.logReply r) = view s := by intros; rfl
  dropHead : ∀ s, view s.dropHead = view s := by intros; rfl
  capture : ∀ s e w, view (s.capture e w) = view s := by intros; rfl

/-- The command written by the host's oldest access is one of the listed ones. -/
theorem oldestResetsOr_of_command {s : State} {allowed : Instr → Prop} {w : Word} {i : Instr}
    {rest : List BusEvent} (hpend : s.pending = cmdWrite s w :: rest) (hdec : decode w = .command i)
    (hi : i = .sysRst ∨ allowed i) : OldestResetsOr s allowed :=
  ⟨_, rest, hpend, .inr ⟨i, ⟨w, rfl, hdec⟩, hi⟩⟩

theorem oldestResetsOr_of_reset {s : State} {rest : List BusEvent} (hpend : s.pending = .reset :: rest)
    (allowed : Instr → Prop) : OldestResetsOr s allowed :=
  ⟨_, rest, hpend, .inl rfl⟩

/-- When only the listed commands and `SYS.RST` change a view, a step that changes it serves one of them or the
reset line. -/
theorem StepEffect.oldestResetsOr {α : Type} {view : State → α} (hview : ViewsUnits view)
    {allowed : Instr → Prop}
    (hcmd : ∀ {s t : State} {i : Instr}, CommandEffect s i t → view t ≠ view s → i = .sysRst ∨ allowed i)
    {s t : State} (heff : StepEffect s t) (hne : view t ≠ view s) : OldestResetsOr s allowed := by
  cases heff with
  | idle => exact absurd rfl hne
  | answeredOnly => exact absurd ((hview.logReply _ _).trans (hview.setPending _ _)) hne
  | popped =>
    exact absurd ((hview.logReply _ _).trans ((hview.dropHead _).trans (hview.setPending _ _))) hne
  | reset hpend => exact oldestResetsOr_of_reset hpend allowed
  | illegal =>
    exact absurd ((hview.logReply _ _).trans ((hview.capture _ _ _).trans (hview.setPending _ _))) hne
  | command hpend hdec heff =>
    rw [hview.logReply, ← hview.setPending s _] at hne
    exact oldestResetsOr_of_command hpend hdec (hcmd heff hne)

/-! ## Who writes what

Along the cases of `CommandEffect`: the state laws refute the change for every command but the listed ones. -/

section

variable {s t : State} {i : Instr}

theorem CommandEffect.writes_chk (heff : CommandEffect s i t) (hne : t.chk ≠ s.chk) :
    i = .sysRst ∨ i = .ckInit ∨ ∃ d, i = .ckStep d ∨ i = .ckHrph d ∨ i = .ckHrpl d := by
  cases heff <;> simp at hne ⊢

theorem CommandEffect.writes_ckok (heff : CommandEffect s i t) (hne : t.ckok ≠ s.ckok) :
    i = .sysRst ∨ i = .ckVer := by
  cases heff <;> simp at hne ⊢

theorem CommandEffect.writes_caseSeen (heff : CommandEffect s i t) (hne : t.caseSeen ≠ s.caseSeen) :
    i = .sysRst ∨ i = .cmClr ∨ ∃ c, i = .cmDec c ∨ i = .cmCase c := by
  cases heff <;> simp at hne ⊢

theorem CommandEffect.writes_ckres (heff : CommandEffect s i t) (hne : t.ckres ≠ s.ckres) :
    i = .sysRst ∨ i = .ckFin := by
  cases heff <;> simp at hne ⊢

theorem CommandEffect.writes_config (heff : CommandEffect s i t)
    (hne : (t.fromW, t.toW, t.pad) ≠ (s.fromW, s.toW, s.pad)) :
    i = .sysRst ∨ ∃ f w, i = .cvCfg f w ∨ i = .cvCfgp f w := by
  cases heff <;> simp at hne ⊢

theorem CommandEffect.clears_err (heff : CommandEffect s i t) (hlock : s.err ≠ .noError)
    (hclear : t.err = .noError) : i = .sysRst ∨ i = .sysClrerr := by
  cases heff <;> simp_all

theorem CommandEffect.parameters (heff : CommandEffect s i t) :
    t.basePage = s.basePage ∧ t.oqDepth = s.oqDepth := by
  cases heff <;> exact ⟨rfl, rfl⟩

/-- A command that is not `SYS.RST` keeps what is queued and may add at the tail. -/
theorem CommandEffect.appends_oq (heff : CommandEffect s i t) (hi : i ≠ .sysRst) :
    ∃ outs, t.oq = s.oq ++ outs := by
  cases heff with
  | sysRst => exact absurd rfl hi
  | cmEnc | cmEncu | cmDec | cvPush | cvFlush => exact ⟨_, rfl⟩
  | _ => exact ⟨[], (List.append_nil _).symm⟩

theorem StepEffect.clears_err (heff : StepEffect s t) (hlock : s.err ≠ .noError) (hclear : t.err = .noError) :
    OldestResetsOr s fun i => i = .sysClrerr := by
  cases heff with
  | idle => exact absurd hclear hlock
  | answeredOnly => exact absurd hclear hlock
  | popped => exact absurd hclear hlock
  | reset hpend => exact oldestResetsOr_of_reset hpend _
  | illegal _ _ hfree => exact absurd hfree hlock
  | command hpend hdec heff => exact oldestResetsOr_of_command hpend hdec (heff.clears_err hlock hclear)

theorem StepEffect.parameters (heff : StepEffect s t) : t.basePage = s.basePage ∧ t.oqDepth = s.oqDepth := by
  cases heff with
  | command _ _ heff => exact heff.parameters
  | _ => exact ⟨rfl, rfl⟩

/-- The queue after a step: added to at the tail, popped at the head by a read of `OQDATA`, or emptied by
reset (10_state.md R32). -/
theorem StepEffect.moves_oq (heff : StepEffect s t) :
    (∃ outs, t.oq = s.oq ++ outs) ∨
    (∃ rest, s.pending = .read 32 (s.baseAddr + 0x20) :: rest ∧ t.oq = s.oq.tail) ∨
    (t.oq = [] ∧ OldestResetsOr s fun _ => False) := by
  cases heff with
  | idle => exact .inl ⟨[], (List.append_nil _).symm⟩
  | answeredOnly => exact .inl ⟨[], (List.append_nil _).symm⟩
  | illegal => exact .inl ⟨[], (List.append_nil _).symm⟩
  | popped hpend => exact .inr (.inl ⟨_, hpend, rfl⟩)
  | reset hpend => exact .inr (.inr ⟨rfl, oldestResetsOr_of_reset hpend _⟩)
  | @command _ i _ _ hpend hdec heff =>
    by_cases hi : i = .sysRst
    · subst hi
      cases heff with
      | sysRst => exact .inr (.inr ⟨rfl, oldestResetsOr_of_command hpend hdec (.inl rfl)⟩)
      | discarded _ hrst => exact absurd rfl hrst
      | raised _ _ hrst => exact absurd rfl hrst
    · exact .inl (heff.appends_oq hi)

end

/-- Settles O21, by cases on what a command can do to `CHK`. -/
theorem onlyTheListedCommandsWriteChk : Obligations.OnlyTheListedCommandsWriteChk :=
  fun _ _ hstep => (step_effect hstep).oldestResetsOr (view := State.chk) {} CommandEffect.writes_chk

/-- Settles O22, by cases on what a command can do to each flag. -/
theorem onlyTheListedCommandsWriteTheFlags : Obligations.OnlyTheListedCommandsWriteTheFlags := by
  intro s t hstep
  have heff : StepEffect s t := step_effect hstep
  exact ⟨heff.oldestResetsOr (view := State.ckok) {} CommandEffect.writes_ckok,
    heff.oldestResetsOr (view := State.caseSeen) {} CommandEffect.writes_caseSeen, heff.clears_err⟩

/-- Settles O23, by cases on what a command can do to the configuration, `CKRES` and the parameters. -/
theorem onlyTheListedCommandsWriteConfigurationAndResult :
    Obligations.OnlyTheListedCommandsWriteConfigurationAndResult := by
  intro s t hstep
  have heff : StepEffect s t := step_effect hstep
  exact ⟨heff.oldestResetsOr (view := fun s => (s.fromW, s.toW, s.pad)) {} CommandEffect.writes_config,
    heff.oldestResetsOr (view := State.ckres) {} CommandEffect.writes_ckres, heff.parameters⟩

/-- Settles O24, by cases on what a step can do to the queue. -/
theorem queueIsFirstInFirstOut : Obligations.QueueIsFirstInFirstOut :=
  fun _ _ hstep => (step_effect hstep).moves_oq

end Sys2Proof.Machine
end

section
/-! PROOFS. What the registers read as (10_state.md R20 to R30), and the pop of a read of `OQDATA` (R28). -/

namespace Sys2Proof.Machine

open Sys2Proof.Safety

/-! ## Registers made of fields

The widths stay sums (`-Nat.reduceAdd`), so that the library's rules for extracting from a concatenation match. -/

/-- The fields of `STATUS` and its reserved bits (10_state.md R22), lowest first. -/
theorem statusWord_fields (s : State) :
    (statusWord s).extractLsb' 0 4 = s.err.code ∧ (statusWord s).extractLsb' 4 4 = 0 ∧
    (statusWord s).extractLsb' 8 1 = BitVec.ofBool s.ckok ∧ (statusWord s).extractLsb' 9 3 = 0 ∧
    (statusWord s).extractLsb' 12 2 = s.caseSeen.code ∧ (statusWord s).extractLsb' 14 2 = 0 ∧
    (statusWord s).extractLsb' 16 5 = BitVec.ofNat 5 s.oq.length ∧ (statusWord s).extractLsb' 21 11 = 0 := by
  simp (disch := decide) only [statusWord, BitVec.extractLsb'_append_eq_of_le,
    BitVec.extractLsb'_append_eq_of_add_le, -Nat.reduceAdd]
  simp

/-- The fields of `CVCFG` and its reserved bits (R26), lowest first. -/
theorem cvcfgWord_fields (s : State) :
    (cvcfgWord s).extractLsb' 0 3 = BitVec.ofNat 3 (s.fromW - 1) ∧
    (cvcfgWord s).extractLsb' 3 1 = BitVec.ofBool false ∧
    (cvcfgWord s).extractLsb' 4 3 = BitVec.ofNat 3 (s.toW - 1) ∧
    (cvcfgWord s).extractLsb' 7 1 = BitVec.ofBool false ∧
    (cvcfgWord s).extractLsb' 8 1 = BitVec.ofBool s.pad ∧ (cvcfgWord s).extractLsb' 9 23 = 0 := by
  simp (disch := decide) only [cvcfgWord, BitVec.extractLsb'_append_eq_of_le,
    BitVec.extractLsb'_append_eq_of_add_le, -Nat.reduceAdd]
  simp

/-- The fields of `CVSTATE` and its reserved bits (R27), lowest first. -/
theorem cvstateWord_fields (s : State) :
    (cvstateWord s).extractLsb' 0 16 = s.acc ∧ (cvstateWord s).extractLsb' 16 4 = BitVec.ofNat 4 s.bits ∧
    (cvstateWord s).extractLsb' 20 12 = 0 := by
  simp (disch := decide) only [cvstateWord, BitVec.extractLsb'_append_eq_of_le,
    BitVec.extractLsb'_append_eq_of_add_le, -Nat.reduceAdd]
  simp

/-- A field of one bit is that bit. -/
theorem getLsbD_of_extractLsb' {n k : Nat} {x : BitVec n} {b : Bool} (h : x.extractLsb' k 1 = BitVec.ofBool b) :
    x.getLsbD k = b := by
  have hbit : (x.extractLsb' k 1).getLsbD 0 = (BitVec.ofBool b).getLsbD 0 := congrArg (BitVec.getLsbD · 0) h
  simpa using hbit

/-- A number below `2 ^ n` is shown whole by a field of `n` bits. -/
theorem toNat_of_eq_ofNat {n k : Nat} {x : BitVec n} (hx : x = BitVec.ofNat n k) (hk : k < 2 ^ n) :
    x.toNat = k := by
  rw [hx, BitVec.toNat_ofNat, Nat.mod_eq_of_lt hk]

/-- Settles O13, from the fields of the three registers and the ranges of the invariant. -/
theorem statusAndConverterRegistersShowTheirFields :
    Obligations.StatusAndConverterRegistersShowTheirFields := by
  intro s hs
  obtain ⟨⟨-, hmax⟩, ⟨hfrom, hfrom'⟩, ⟨hto, hto'⟩, hbits, hoq, -⟩ := hs
  have hdepth : s.oqDepth ≤ 31 := hmax
  obtain ⟨herr, hres4, hckok, hres9, hcase, hres14, hcount, hres21⟩ := statusWord_fields s
  obtain ⟨hf, hres3, ht, hres7, hpad, hres9'⟩ := cvcfgWord_fields s
  obtain ⟨hacc, hb, hres20⟩ := cvstateWord_fields s
  refine ⟨⟨?_, hres4, getLsbD_of_extractLsb' hckok, hres9, ?_, hres14, ?_, hres21⟩,
    ⟨?_, getLsbD_of_extractLsb' hres3, ?_, getLsbD_of_extractLsb' hres7, getLsbD_of_extractLsb' hpad, hres9'⟩,
    hacc, ?_, hres20⟩
  · exact (congrArg BitVec.toNat herr).trans (by cases s.err <;> rfl)
  · exact (congrArg BitVec.toNat hcase).trans (by cases s.caseSeen <;> rfl)
  · exact toNat_of_eq_ofNat hcount (by omega)
  · have hfield := toNat_of_eq_ofNat hf (by omega)
    exact (congrArg (· + 1) hfield).trans (Nat.sub_add_cancel hfrom)
  · have hfield := toNat_of_eq_ofNat ht (by omega)
    exact (congrArg (· + 1) hfield).trans (Nat.sub_add_cancel hto)
  · exact toNat_of_eq_ofNat hb (by omega)

/-! ## The other registers -/

/-- Settles O14: every other register shows one piece of the state, and `checksumSymbol` cuts `CKRES` as R25
says. -/
theorem otherRegistersShowTheirValues : Obligations.OtherRegistersShowTheirValues := by
  intro s off hs
  obtain ⟨⟨-, hmax⟩, -⟩ := hs
  have hdepth : s.oqDepth ≤ 31 := hmax
  have hchk (c : Checksum) : (c.setWidth 32).toNat = c.toNat :=
    BitVec.toNat_setWidth_of_le (by decide)
  have hparam : ((BitVec.ofNat 5 s.oqDepth).setWidth 32).toNat = s.oqDepth := by
    rw [BitVec.toNat_setWidth_of_le (by decide)]
    exact toNat_of_eq_ofNat rfl (by omega)
  refine ⟨rfl, rfl, rfl, hchk s.chk, hchk s.ckres, hparam,
    fun hoff => congrArg (fun r => (registerValue r s).toNat) (registerAt_of_reserved hoff), fun k _ => ?_⟩
  calc (checksumSymbol s.ckres k).toNat
      = s.ckres.toNat >>> (25 - 5 * k) % 2 ^ 5 := BitVec.extractLsb'_toNat _ _ _
    _ = s.ckres.toNat / 2 ^ (25 - 5 * k) % 2 ^ 5 := by rw [Nat.shiftRight_eq_div_pow]
    _ = (s.ckres.setWidth 32).toNat / 2 ^ (25 - 5 * k) % 2 ^ 5 := by rw [hchk]

/-! ## Reading the queue -/

theorem oqdataWord_of_nil {s : State} (h : s.oq = []) : oqdataWord s = 0 := by
  rw [oqdataWord, h]

/-- The head with bit 8 set (10_state.md R28). -/
theorem oqdataWord_of_cons {s : State} {x : Byte} {xs : List Byte} (h : s.oq = x :: xs) :
    oqdataWord s = BitVec.ofNat 32 (0x100 + x.toNat) := by
  have hx : x.toNat < 2 ^ 8 := x.isLt
  have hsum : (BitVec.ofNat 32 (0x100 + x.toNat)).toNat = 0x100 + x.toNat :=
    toNat_of_eq_ofNat rfl (by omega)
  rw [oqdataWord, h]
  apply BitVec.eq_of_toNat_eq
  rw [hsum, BitVec.toNat_setWidth_of_le (by decide), BitVec.toNat_append, ← Nat.shiftLeft_add_eq_or_of_lt hx]
  rfl

/-- Settles O9: the read answers `oqdataWord` and drops the head, and a write there is no `CMD` write. -/
theorem queueReadPopsOneEntry : Obligations.QueueReadPopsOneEntry := by
  intro s v
  have hread : serve (.read 32 (s.baseAddr + 0x20)) s = .next (s.dropHead.logReply (.data (oqdataWord s))) :=
    serve_read_window s (by decide) (by decide)
  refine ⟨fun x xs hoq => ?_, fun hoq => ?_, serve_write_window s v (off := 0x20) (by decide) (by decide)⟩
  · rw [hread, oqdataWord_of_cons hoq]
    simp [State.logReply, State.dropHead, hoq]
  · rw [hread, oqdataWord_of_nil hoq]
    simp [State.logReply, State.dropHead, hoq]

/-! ## Reset -/

/-- Settles O17: both invariants are decidable and hold of the reset state by evaluation. -/
theorem resetStateMeetsTheInvariants : Obligations.ResetStateMeetsTheInvariants :=
  ⟨by decide, by decide⟩

end Sys2Proof.Machine
end

section
/-! PROOFS. How a step serves an access of the bus: a read, a write, a refused access and one outside the
window (20_memory.md R35, R37, R40, R41). -/

namespace Sys2Proof.Machine

/-! ## One step and a run -/

/-- With no access to serve the block holds its state (60_exceptions.md R122). -/
theorem step_of_idle {s : State} (hpend : s.pending = []) : step s = .next s := by
  rw [step, hpend]

theorem step_of_pending {s : State} {e : BusEvent} {rest : List BusEvent} (hpend : s.pending = e :: rest) :
    step s = serve e (s.setPending rest) := by
  rw [step, hpend]

theorem run_two_of_steps {s t u : State} (hfirst : step s = .next t) (hsecond : step t = .next u) :
    Host.Core.run core 2 s = .next u := by
  simp only [Host.Core.run, core, hfirst, hsecond]

/-! ## Reads -/

/-- A register shows the block's own state, which the host's side of the bus is no part of. -/
theorem registerValue_setPending (r : Register) (s : State) (es : List BusEvent) :
    registerValue r (s.setPending es) = registerValue r s := by
  cases r <;> rfl

theorem registerValue_logReply (r : Register) (s : State) (a : Reply) :
    registerValue r (s.logReply a) = registerValue r s := by
  cases r <;> rfl

/-- A step that reads the window answers the register's value and leaves what `afterRead` says (R40). -/
theorem step_read_window {s : State} {off : Nat} {rest : List BusEvent} (hoff : off < 256)
    (halign : off % 4 = 0) (hpend : s.pending = .read 32 (s.baseAddr + off) :: rest) :
    step s = .next ((afterRead (registerAt off) (s.setPending rest)).logReply
      (.data (registerValue (registerAt off) s))) := by
  rw [step_of_pending hpend, ← registerValue_setPending _ s rest]
  exact serve_read_window (s.setPending rest) hoff halign

/-- A read of any register but `OQDATA` only answers. -/
theorem step_read_of_ne_oqdata {s : State} {off : Nat} {rest : List BusEvent} (hoff : off < 256)
    (halign : off % 4 = 0) (hne : off ≠ 0x20) (hpend : s.pending = .read 32 (s.baseAddr + off) :: rest) :
    step s = .next ((s.setPending rest).logReply (.data (registerValue (registerAt off) s))) := by
  rw [step_read_window hoff halign hpend, afterRead_of_ne (mt registerAt_eq_oqdata.1 hne)]

/-- Two reads of such a register answer the same value, since the first leaves every register as it was. -/
theorem run_two_reads_of_ne_oqdata {s : State} {off : Nat} {more : List BusEvent} (hoff : off < 256)
    (halign : off % 4 = 0) (hne : off ≠ 0x20)
    (hpend : s.pending = .read 32 (s.baseAddr + off) :: .read 32 (s.baseAddr + off) :: more) :
    Host.Core.run core 2 s =
      .next (((s.setPending more).logReply (.data (registerValue (registerAt off) s))).logReply
        (.data (registerValue (registerAt off) s))) := by
  have hfirst := step_read_of_ne_oqdata hoff halign hne hpend
  have hsecond := step_read_of_ne_oqdata (rest := more) hoff halign hne
    (s := (s.setPending (.read 32 (s.baseAddr + off) :: more)).logReply
      (.data (registerValue (registerAt off) s))) rfl
  rw [registerValue_logReply, registerValue_setPending] at hsecond
  exact run_two_of_steps hfirst hsecond

/-- Settles O8, from what one read of the window leaves and answers, and two reads in a row. -/
theorem readsAnswerTheRegisterAndOnlyPopTheQueue : Obligations.ReadsAnswerTheRegisterAndOnlyPopTheQueue := by
  intro s off rest hoff halign hpend
  refine ⟨fun hne => step_read_of_ne_oqdata hoff halign hne hpend, fun heq => ?_, fun hne more hrest => ?_⟩
  · subst heq
    exact step_read_window hoff halign hpend
  · subst hrest
    exact run_two_reads_of_ne_oqdata hoff halign hne hpend

/-! ## Writes -/

/-- Settles O10, by whether the offset of the write is that of `CMD`. -/
theorem onlyCommandWritesHaveAnEffect : Obligations.OnlyCommandWritesHaveAnEffect := by
  intro s off v rest hoff halign hpend
  have hstep := (step_of_pending hpend).trans (serve_write_window (s.setPending rest) v hoff halign)
  exact ⟨fun hcmd => hstep.trans (if_pos hcmd), fun hne => hstep.trans (if_neg hne)⟩

/-! ## Accesses that are refused or do not reach the block -/

theorem reach_of_not_admitted {width addr : Nat} {s : State} (hwin : inWindow s addr = true)
    (hadm : admitted width addr = false) (run : Result) :
    reach width addr s run = .next (s.logReply .busError) := by
  simp [reach, hwin, hadm]

theorem reach_of_not_inWindow {addr : Nat} {s : State} (hwin : inWindow s addr = false) (width : Nat)
    (run : Result) : reach width addr s run = .fault .outsideWindow := by
  simp [reach, hwin]

/-- The width and the alignment are what R37 asks of an access. -/
theorem admitted_baseAddr_add_eq_false (s : State) {width off : Nat} (hoff : off < 256)
    (hbad : width ≠ 32 ∨ off % 4 ≠ 0) : admitted width (s.baseAddr + off) = false := by
  rw [Bool.eq_false_iff, ne_eq, admitted_eq_true, offsetOf_baseAddr_add s hoff]
  exact Decidable.not_and_iff_not_or_not.2 hbad

theorem inWindow_eq_false_of_outside {s : State} {addr : Nat}
    (hout : addr < s.baseAddr ∨ s.baseAddr + 0xFF < addr) : inWindow s addr = false := by
  unfold State.baseAddr Config.windowSize at hout
  exact decide_eq_false (by simp only [Config.windowSize]; omega)

/-- Settles O11: an access of the window that is not admitted gets the error response, read or write. -/
theorem refusedAccessesHaveNoEffect : Obligations.RefusedAccessesHaveNoEffect := by
  intro s width off v hoff hbad
  have hwin := inWindow_baseAddr_add s hoff
  have hadm := admitted_baseAddr_add_eq_false s hoff hbad
  exact ⟨reach_of_not_admitted hwin hadm _, reach_of_not_admitted hwin hadm _⟩

/-- Settles O12, by the window's bounds, and by the step with nothing to serve. -/
theorem accessOutsideTheWindowDoesNotReachTheBlock :
    Obligations.AccessOutsideTheWindowDoesNotReachTheBlock := by
  intro s width addr v
  refine ⟨fun hout => ?_, step_of_idle⟩
  have hwin := inWindow_eq_false_of_outside hout
  exact ⟨reach_of_not_inWindow hwin width _, reach_of_not_inWindow hwin width _⟩

end Sys2Proof.Machine
end

section
/-! PROOFS. The encoder, the decoder and the list of illegal encodings (30_encoding.md R49 to R53). -/

namespace Sys2Proof

open Sys2Proof.Machine

/-! ## The fields of the one format -/

@[simp] theorem opField_commandWord (op fn : BitVec 4) (d : Byte) : opField (commandWord op fn d) = op := by
  rw [opField, commandWord, BitVec.extractLsb'_append_eq_of_le (by decide),
    BitVec.extractLsb'_append_eq_of_le (by decide)]
  exact BitVec.extractLsb'_eq_self

@[simp] theorem fnField_commandWord (op fn : BitVec 4) (d : Byte) : fnField (commandWord op fn d) = fn := by
  rw [fnField, commandWord, BitVec.extractLsb'_append_eq_of_le (by decide)]
  exact BitVec.extractLsb'_append_eq_right

@[simp] theorem dField_commandWord (op fn : BitVec 4) (d : Byte) : dField (commandWord op fn d) = d :=
  BitVec.extractLsb'_append_eq_right

/-- The three fields are the whole command word (R49). -/
theorem commandWord_fields (cw : CommandWord) : commandWord (opField cw) (fnField cw) (dField cw) = cw := by
  have hunit : opField cw ++ fnField cw = cw.extractLsb' 8 8 :=
    BitVec.extractLsb'_append_extractLsb'_eq_extractLsb' rfl
  rw [commandWord, hunit]
  exact BitVec.extractLsb'_append_extractLsb'

/-! ## The two halves of a `CMD` value -/

theorem decode_of_high_half_zero {w : Word} (h : w.extractLsb' 16 16 = 0) :
    decode w = decodeCommandWord (w.extractLsb' 0 16) :=
  if_neg (not_not_intro h)

theorem decode_of_high_half_ne_zero {w : Word} (h : w.extractLsb' 16 16 ≠ 0) : decode w = .illegal .highHalf :=
  if_pos h

/-- A command word below a zero half decodes as the word (R48, R52). -/
theorem decode_setWidth (cw : CommandWord) : decode (cw.setWidth 32) = decodeCommandWord cw := by
  have hhigh : (cw.setWidth 32).extractLsb' 16 16 = 0 := by
    ext k hk
    simp
  have hlow : (cw.setWidth 32).extractLsb' 0 16 = cw := by
    rw [BitVec.extractLsb'_setWidth_of_le (by decide), BitVec.extractLsb'_eq_self]
  rw [decode_of_high_half_zero hhigh, hlow]

theorem high_half_toNat (w : Word) : (w.extractLsb' 16 16).toNat = w.toNat / 2 ^ 16 := by
  have hw : w.toNat < 2 ^ 32 := w.isLt
  rw [BitVec.extractLsb'_toNat, Nat.shiftRight_eq_div_pow]
  omega

theorem high_half_eq_zero {w : Word} : w.extractLsb' 16 16 = 0 ↔ w.toNat / 2 ^ 16 = 0 := by
  rw [← high_half_toNat]
  exact BitVec.toNat_inj.symm

/-- A value whose upper half is zero is its lower half. -/
theorem setWidth_low_half {w : Word} (h : w.extractLsb' 16 16 = 0) : (w.extractLsb' 0 16).setWidth 32 = w := by
  have hhigh := high_half_eq_zero.1 h
  apply BitVec.eq_of_toNat_eq
  rw [BitVec.toNat_setWidth_of_le (by decide), BitVec.extractLsb'_toNat, Nat.shiftRight_zero]
  omega

/-- The one way a value is legal: a zero upper half, and a command word below it. -/
theorem decode_eq_command {w : Word} {i : Instr} :
    decode w = .command i ↔ w.extractLsb' 16 16 = 0 ∧ decodeCommandWord (w.extractLsb' 0 16) = .command i := by
  by_cases h : w.extractLsb' 16 16 = 0
  · rw [decode_of_high_half_zero h, and_iff_right h]
  · exact ⟨fun hd => (nomatch (decode_of_high_half_ne_zero h).symm.trans hd), fun hd => absurd hd.1 h⟩

/-! ## The operand of the widths -/

theorem fromOfOperand_widthsOperand {f : Nat} (hf : widthOk f = true) (t : Nat) :
    fromOfOperand (widthsOperand f t) = f := by
  obtain ⟨hlow, hhigh⟩ := widthOk_eq_true.1 hf
  rw [fromOfOperand, widthsOperand, BitVec.extractLsb'_append_eq_right, BitVec.toNat_ofNat]
  omega

theorem toOfOperand_widthsOperand (f : Nat) {t : Nat} (ht : widthOk t = true) :
    toOfOperand (widthsOperand f t) = t := by
  obtain ⟨hlow, hhigh⟩ := widthOk_eq_true.1 ht
  rw [toOfOperand, widthsOperand, BitVec.extractLsb'_append_eq_of_le (by decide),
    BitVec.extractLsb'_append_eq_of_le (by decide), BitVec.extractLsb'_append_eq_right, BitVec.toNat_ofNat]
  omega

/-- Bits 7 and 3 of the operand are zero (R51). -/
theorem widthsOperand_fixed_bits (f t : Nat) :
    ((widthsOperand f t).getLsbD 7 || (widthsOperand f t).getLsbD 3) = false := by
  have hmask := Laws.TableRow.masked_widths f t
  generalize widthsOperand f t = d at hmask ⊢
  revert d
  decide

/-- Bits 7 and 3 aside, the operand is its two fields (R50). -/
theorem widthsOperand_fields {d : Byte} (h : (d.getLsbD 7 || d.getLsbD 3) = false) :
    widthsOperand (fromOfOperand d) (toOfOperand d) = d := by
  revert d
  decide

theorem widthsForm_widthsOperand (make : Nat → Nat → Instr) {f t : Nat} (hf : widthOk f = true)
    (ht : widthOk t = true) : widthsForm make (widthsOperand f t) = .command (make f t) :=
  widthsForm_eq_command.2 ⟨widthsOperand_fixed_bits f t,
    by rw [fromOfOperand_widthsOperand hf, toOfOperand_widthsOperand f ht]⟩

/-! ## From a command to its word and back -/

/-- A unit's decoder reads the words of its `OP` (R52). -/
theorem decodeCommandWord_cm (fn : BitVec 4) (d : Byte) :
    decodeCommandWord (commandWord 1 fn d) = decodeCm fn.toNat d := by
  simp [decodeCommandWord]

theorem decodeCommandWord_ck (fn : BitVec 4) (d : Byte) :
    decodeCommandWord (commandWord 2 fn d) = decodeCk fn.toNat d := by
  simp [decodeCommandWord]

theorem decodeCommandWord_cv (fn : BitVec 4) (d : Byte) :
    decodeCommandWord (commandWord 3 fn d) = decodeCv fn.toNat d := by
  simp [decodeCommandWord]

theorem decodeCommandWord_encodeCommandWord {i : Instr} (hi : i.wellFormed = true) :
    decodeCommandWord (encodeCommandWord i) = .command i := by
  cases i with
  | nop => rfl
  | sysRst => rfl
  | sysClrerr => rfl
  | cmClr => rfl
  | ckInit => rfl
  | ckFin => rfl
  | ckVer => rfl
  | cvFlush => rfl
  | cmEnc v => exact decodeCommandWord_cm 1 v
  | cmEncu v => exact decodeCommandWord_cm 2 v
  | cmDec c => exact decodeCommandWord_cm 3 c
  | cmCase c => exact decodeCommandWord_cm 4 c
  | ckStep v => exact decodeCommandWord_ck 1 v
  | ckHrph c => exact decodeCommandWord_ck 2 c
  | ckHrpl c => exact decodeCommandWord_ck 3 c
  | cvPush x => exact decodeCommandWord_cv 2 x
  | cvCfg f t =>
    obtain ⟨hf, ht⟩ := Bool.and_eq_true_iff.1 hi
    exact (decodeCommandWord_cv 0 _).trans (widthsForm_widthsOperand .cvCfg hf ht)
  | cvCfgp f t =>
    obtain ⟨hf, ht⟩ := Bool.and_eq_true_iff.1 hi
    exact (decodeCommandWord_cv 1 _).trans (widthsForm_widthsOperand .cvCfgp hf ht)

theorem encodeCommandWord_of_noneForm {op fn : BitVec 4} {d : Byte} {i j : Instr}
    (hi : encodeCommandWord i = commandWord op fn 0) (h : noneForm i d = .command j) :
    encodeCommandWord j = commandWord op fn d := by
  obtain ⟨rfl, rfl⟩ := noneForm_eq_command.1 h
  exact hi

theorem encodeCommandWord_of_widthsForm {op fn : BitVec 4} {d : Byte} {make : Nat → Nat → Instr} {j : Instr}
    (hmake : ∀ f t, encodeCommandWord (make f t) = commandWord op fn (widthsOperand f t))
    (h : widthsForm make d = .command j) : encodeCommandWord j = commandWord op fn d := by
  obtain ⟨hbits, rfl⟩ := widthsForm_eq_command.1 h
  rw [hmake, widthsOperand_fields hbits]

/-- A unit's decoder answers only the command whose word it was given. -/
theorem encodeCommandWord_of_decodeSys {fn : Nat} {d : Byte} {i : Instr} (h : decodeSys fn d = .command i) :
    encodeCommandWord i = commandWord 0 (BitVec.ofNat 4 fn) d := by
  unfold decodeSys at h
  split at h
  · exact encodeCommandWord_of_noneForm rfl h
  · exact encodeCommandWord_of_noneForm rfl h
  · exact encodeCommandWord_of_noneForm rfl h
  · exact nomatch h

theorem encodeCommandWord_of_decodeCm {fn : Nat} {d : Byte} {i : Instr} (h : decodeCm fn d = .command i) :
    encodeCommandWord i = commandWord 1 (BitVec.ofNat 4 fn) d := by
  unfold decodeCm at h
  split at h
  · exact encodeCommandWord_of_noneForm rfl h
  · exact Decoded.command.inj h ▸ rfl
  · exact Decoded.command.inj h ▸ rfl
  · exact Decoded.command.inj h ▸ rfl
  · exact Decoded.command.inj h ▸ rfl
  · exact nomatch h

theorem encodeCommandWord_of_decodeCk {fn : Nat} {d : Byte} {i : Instr} (h : decodeCk fn d = .command i) :
    encodeCommandWord i = commandWord 2 (BitVec.ofNat 4 fn) d := by
  unfold decodeCk at h
  split at h
  · exact encodeCommandWord_of_noneForm rfl h
  · exact Decoded.command.inj h ▸ rfl
  · exact Decoded.command.inj h ▸ rfl
  · exact Decoded.command.inj h ▸ rfl
  · exact encodeCommandWord_of_noneForm rfl h
  · exact encodeCommandWord_of_noneForm rfl h
  · exact nomatch h

theorem encodeCommandWord_of_decodeCv {fn : Nat} {d : Byte} {i : Instr} (h : decodeCv fn d = .command i) :
    encodeCommandWord i = commandWord 3 (BitVec.ofNat 4 fn) d := by
  unfold decodeCv at h
  split at h
  · exact encodeCommandWord_of_widthsForm (fun _ _ => rfl) h
  · exact encodeCommandWord_of_widthsForm (fun _ _ => rfl) h
  · exact Decoded.command.inj h ▸ rfl
  · exact encodeCommandWord_of_noneForm rfl h
  · exact nomatch h

theorem encodeCommandWord_of_decodeCommandWord {cw : CommandWord} {i : Instr}
    (h : decodeCommandWord cw = .command i) : encodeCommandWord i = cw := by
  have hfn : BitVec.ofNat 4 (fnField cw).toNat = fnField cw := by simp
  have hop : BitVec.ofNat 4 (opField cw).toNat = opField cw := by simp
  refine Eq.trans ?_ (commandWord_fields cw)
  rw [← hfn, ← hop]
  unfold decodeCommandWord at h
  dsimp only at h
  split at h
  next hunit => rw [hunit]; exact encodeCommandWord_of_decodeSys h
  next hunit => rw [hunit]; exact encodeCommandWord_of_decodeCm h
  next hunit => rw [hunit]; exact encodeCommandWord_of_decodeCk h
  next hunit => rw [hunit]; exact encodeCommandWord_of_decodeCv h
  next => exact nomatch h

/-- Settles O1, by the round trip of the command word under a zero upper half. -/
theorem decodeInvertsEncode : Obligations.DecodeInvertsEncode := fun i hi =>
  (decode_setWidth (encodeCommandWord i)).trans (decodeCommandWord_encodeCommandWord hi)

/-- Settles O2: the upper half is zero, and the lower half is the word of the command it decodes to. -/
theorem encodeInvertsDecode : Obligations.EncodeInvertsDecode := by
  intro w i h
  obtain ⟨hhigh, hlow⟩ := decode_eq_command.1 h
  refine ⟨decode_wellFormed h, ?_⟩
  rw [encode, encodeCommandWord_of_decodeCommandWord hlow]
  exact setWidth_low_half hhigh

/-- Settles O4: the decoder run on the 18 closed values. -/
theorem opcodeMapWordsDecode : Obligations.OpcodeMapWordsDecode := by
  unfold Obligations.OpcodeMapWordsDecode
  decide

/-! ## The illegal encodings (R53) -/

/-- A field of the lower half as arithmetic on the value, the form R53 is stated in. -/
theorem extractLsb'_low_half_toNat (w : Word) {start len : Nat} (h : start + len ≤ 16) :
    ((w.extractLsb' 0 16).extractLsb' start len).toNat = w.toNat / 2 ^ start % 2 ^ len := by
  rw [BitVec.extractLsb'_extractLsb'_of_le h, BitVec.extractLsb'_toNat, Nat.shiftRight_eq_div_pow]

theorem ne_zero_iff_toNat_ne_zero {d : Byte} : d ≠ 0 ↔ d.toNat ≠ 0 := not_congr BitVec.toNat_inj.symm

theorem getLsbD_eq_true_iff_div_mod {d : Byte} {k : Nat} : d.getLsbD k = true ↔ d.toNat / 2 ^ k % 2 = 1 := by
  rw [BitVec.getLsbD, Nat.testBit_eq_decide_div_mod_eq, decide_eq_true_iff]

theorem noneForm_illegal_iff {i : Instr} {d : Byte} : (∃ why, noneForm i d = .illegal why) ↔ d.toNat ≠ 0 := by
  rw [← ne_zero_iff_toNat_ne_zero]
  unfold noneForm
  split <;> simp_all

theorem widthsForm_illegal_iff {make : Nat → Nat → Instr} {d : Byte} :
    (∃ why, widthsForm make d = .illegal why) ↔ d.toNat / 2 ^ 3 % 2 = 1 ∨ d.toNat / 2 ^ 7 % 2 = 1 := by
  rw [← getLsbD_eq_true_iff_div_mod, ← getLsbD_eq_true_iff_div_mod, or_comm, ← Bool.or_eq_true]
  unfold widthsForm
  split <;> simp_all

/-- The illegal function numbers and operands of each unit (R53). -/
theorem decodeSys_illegal_iff (fn : Nat) (d : Byte) :
    (∃ why, decodeSys fn d = .illegal why) ↔ 3 ≤ fn ∨ fn ≤ 2 ∧ d.toNat ≠ 0 := by
  match fn with
  | 0 | 1 | 2 => simp [decodeSys, noneForm_illegal_iff]
  | k + 3 => simp [decodeSys]

theorem decodeCm_illegal_iff (fn : Nat) (d : Byte) :
    (∃ why, decodeCm fn d = .illegal why) ↔ 5 ≤ fn ∨ fn = 0 ∧ d.toNat ≠ 0 := by
  match fn with
  | 0 => simp [decodeCm, noneForm_illegal_iff]
  | 1 | 2 | 3 | 4 => simp [decodeCm]
  | k + 5 => simp [decodeCm]

theorem decodeCk_illegal_iff (fn : Nat) (d : Byte) :
    (∃ why, decodeCk fn d = .illegal why) ↔ 6 ≤ fn ∨ (fn = 0 ∨ fn = 4 ∨ fn = 5) ∧ d.toNat ≠ 0 := by
  match fn with
  | 0 | 4 | 5 => simp [decodeCk, noneForm_illegal_iff]
  | 1 | 2 | 3 => simp [decodeCk]
  | k + 6 => simp [decodeCk]

theorem decodeCv_illegal_iff (fn : Nat) (d : Byte) :
    (∃ why, decodeCv fn d = .illegal why) ↔
      4 ≤ fn ∨ fn = 3 ∧ d.toNat ≠ 0 ∨ fn ≤ 1 ∧ (d.toNat / 2 ^ 3 % 2 = 1 ∨ d.toNat / 2 ^ 7 % 2 = 1) := by
  match fn with
  | 0 | 1 => simp [decodeCv, widthsForm_illegal_iff]
  | 2 => simp [decodeCv]
  | 3 => simp [decodeCv, noneForm_illegal_iff]
  | k + 4 => simp [decodeCv]

/-- An illegal encoding raises `E_ILLEGAL` with the value written, except under the lock (R53). -/
theorem issue_of_illegal {w : Word} {why : Illegal} (h : decode w = .illegal why) (s : State) :
    issue w s = if s.err = .noError then .next { s with err := .illegal, errinfo := w } else .next s := by
  have hissue : issue w s = runIllegal w s := by rw [issue, h]
  rw [hissue]
  split
  next hfree => exact runIllegal_of_unlocked hfree w
  next hlock => exact runIllegal_of_locked hlock w

/-- Settles O3: the upper half, then the unit's own list, and what a write of such a value does. -/
theorem illegalEncodingsAreTheListedOnes : Obligations.IllegalEncodingsAreTheListedOnes := by
  intro w high op fn d
  refine ⟨?_, fun s why h => issue_of_illegal h s⟩
  have hop : (opField (w.extractLsb' 0 16)).toNat = op := extractLsb'_low_half_toNat w (by decide)
  have hfn : (fnField (w.extractLsb' 0 16)).toNat = fn := extractLsb'_low_half_toNat w (by decide)
  have hd : (dField (w.extractLsb' 0 16)).toNat = d := by
    rw [dField, extractLsb'_low_half_toNat w (by decide), Nat.pow_zero, Nat.div_one]
  have hhigh : w.extractLsb' 16 16 = 0 ↔ high = 0 := high_half_eq_zero
  clear_value high op fn d
  by_cases hz : w.extractLsb' 16 16 = 0
  · rw [decode_of_high_half_zero hz, decodeCommandWord, ← hd, hfn]
    match op with
    | 0 => simp [hop, decodeSys_illegal_iff, hhigh.1 hz]
    | 1 => simp [hop, decodeCm_illegal_iff, hhigh.1 hz]
    | 2 => simp [hop, decodeCk_illegal_iff, hhigh.1 hz]
    | 3 => simp [hop, decodeCv_illegal_iff, hhigh.1 hz]
    | k + 4 => simp [hop]
  · simp [decode_of_high_half_ne_zero hz, mt hhigh.2 hz]

end Sys2Proof
end

section
/-! PROOFS. The assembler reads back the line of every well-formed command (30_encoding.md R55). -/

namespace Sys2Proof.Machine

/-! ## Numbers as `render` writes them -/

theorem hexDigit_hexChar {n : Nat} (h : n < 16) : hexDigit (hexChar n) = some n := by
  interval_cases n <;> rfl

theorem readNumber_hexText {hi lo : Nat} (hhi : hi < 16) (hlo : lo < 16) :
    readNumber [0x30, 0x78, hexChar hi, hexChar lo] = some (hi * 16 + lo, []) := by
  have hread : readNumber [0x30, 0x78, hexChar hi, hexChar lo] =
      readNumberIn 16 hexDigit [hexChar hi, hexChar lo] := rfl
  rw [hread]
  simp [readNumberIn, readDigits, hexDigit_hexChar hhi, hexDigit_hexChar hlo]

/-- The two hexadecimal digits of a byte give the byte back. -/
theorem readByte_hexText (b : Byte) :
    readByte [0x30, 0x78, hexChar (b.toNat / 16), hexChar (b.toNat % 16)] = some (b, []) := by
  have hb : b.toNat < 2 ^ 8 := b.isLt
  have hsum : b.toNat / 16 * 16 + b.toNat % 16 = b.toNat := by omega
  rw [readByte, readNumber_hexText (by omega) (by omega), hsum]
  simp
  omega

theorem readByte_byteText (b : Byte) : readByte (byteText b) = some (b, []) := readByte_hexText b

theorem readChar_byteText (b : Byte) : readChar (byteText b) = some (b, []) := readByte_hexText b

/-- A width is one decimal digit, which the end of the line or a comma ends. -/
theorem readWidth_hexChar {n : Nat} (h : widthOk n = true) {rest : Str}
    (hrest : rest = [] ∨ ∃ more, rest = 0x2C :: more) :
    readWidth (0x20 :: hexChar n :: rest) = some (n, rest) := by
  obtain ⟨hlow, hhigh⟩ := widthOk_eq_true.1 h
  obtain rfl | ⟨more, rfl⟩ := hrest
  · interval_cases n <;> rfl
  · interval_cases n <;> rfl

theorem readWidths_widthsText {f t : Nat} (hf : widthOk f = true) (ht : widthOk t = true) :
    readWidths [0x20, hexChar f, 0x2C, 0x20, hexChar t] = some ((f, t), []) := by
  have hcomma : readComma [0x2C, 0x20, hexChar t] = some [0x20, hexChar t] := rfl
  simp only [readWidths, readWidth_hexChar hf (.inr ⟨_, rfl⟩), hcomma, readWidth_hexChar ht (.inl rfl),
    Option.map_some]

/-! ## Operands -/

theorem readOperands_number (make : Byte → Instr) (b : Byte) :
    readOperands (.number make) (byteText b) = some [make b] := by
  rw [readOperands, readByte_byteText]
  rfl

theorem readOperands_character (make : Byte → Instr) (b : Byte) :
    readOperands (.character make) (byteText b) = some [make b] := by
  rw [readOperands, readChar_byteText]
  rfl

theorem readOperands_widths (make : Nat → Nat → Instr) {f t : Nat} (hf : widthOk f = true)
    (ht : widthOk t = true) :
    readOperands (.widths make) [0x20, hexChar f, 0x2C, 0x20, hexChar t] = some [make f t] := by
  rw [readOperands, readWidths_widthsText hf ht]
  rfl

/-- What follows the mnemonic of each command (R55). -/
def asmForm : Instr → AsmForm
  | .nop => .bare [.nop]
  | .sysRst => .bare [.sysRst]
  | .sysClrerr => .bare [.sysClrerr]
  | .cmClr => .bare [.cmClr]
  | .cmEnc _ => .number .cmEnc
  | .cmEncu _ => .number .cmEncu
  | .cmDec _ => .character .cmDec
  | .cmCase _ => .character .cmCase
  | .ckInit => .bare [.ckInit]
  | .ckStep _ => .number .ckStep
  | .ckHrph _ => .character .ckHrph
  | .ckHrpl _ => .character .ckHrpl
  | .ckFin => .bare [.ckFin]
  | .ckVer => .bare [.ckVer]
  | .cvCfg _ _ => .widths .cvCfg
  | .cvCfgp _ _ => .widths .cvCfgp
  | .cvPush _ => .number .cvPush
  | .cvFlush => .bare [.cvFlush]

/-- Each form reads the operand text that `render` writes for it. -/
theorem readOperands_operandText {i : Instr} (hi : i.wellFormed = true) :
    readOperands (asmForm i) (operandText i) = some [i] := by
  cases i with
  | nop => rfl
  | sysRst => rfl
  | sysClrerr => rfl
  | cmClr => rfl
  | ckInit => rfl
  | ckFin => rfl
  | ckVer => rfl
  | cvFlush => rfl
  | cmEnc v => exact readOperands_number .cmEnc v
  | cmEncu v => exact readOperands_number .cmEncu v
  | ckStep v => exact readOperands_number .ckStep v
  | cvPush x => exact readOperands_number .cvPush x
  | cmDec c => exact readOperands_character .cmDec c
  | cmCase c => exact readOperands_character .cmCase c
  | ckHrph c => exact readOperands_character .ckHrph c
  | ckHrpl c => exact readOperands_character .ckHrpl c
  | cvCfg f t =>
    obtain ⟨hf, ht⟩ := Bool.and_eq_true_iff.1 hi
    exact readOperands_widths .cvCfg hf ht
  | cvCfgp f t =>
    obtain ⟨hf, ht⟩ := Bool.and_eq_true_iff.1 hi
    exact readOperands_widths .cvCfgp hf ht

/-! ## Mnemonics -/

/-- A blank or a comment ends a mnemonic. -/
abbrev endsName (c : Byte) : Bool := isBlank c || c == 0x3B

/-- No two rows of the assembler's table have one mnemonic. -/
theorem asmForms_nodup : (asmForms.map fun entry => ascii entry.1).Nodup := by decide +kernel

/-- The names as one evaluation over the table. -/
theorem asmForms_all_names :
    (asmForms.all fun entry => !(ascii entry.1).isEmpty && (ascii entry.1).all fun c => !endsName c) = true := by
  decide +kernel

/-- A mnemonic of the table is one word. -/
theorem asmForms_name {entry : String × AsmForm} (h : entry ∈ asmForms) :
    ascii entry.1 ≠ [] ∧ ∀ c ∈ ascii entry.1, endsName c = false := by
  obtain ⟨hne, hname⟩ := Bool.and_eq_true_iff.1 (List.all_eq_true.1 asmForms_all_names entry h)
  exact ⟨by simpa using hne, by simpa using hname⟩

/-- Looking a mnemonic up finds its own row. -/
theorem find_asmForms {entry : String × AsmForm} (h : entry ∈ asmForms) :
    asmForms.find? (fun e => ascii e.1 == ascii entry.1) = some entry := by
  have hsome : (asmForms.find? fun e => ascii e.1 == ascii entry.1).isSome :=
    List.find?_isSome.2 ⟨entry, h, beq_self_eq_true _⟩
  obtain ⟨found, hfound⟩ := Option.isSome_iff_exists.1 hsome
  have hname : (ascii found.1 == ascii entry.1) = true := by simpa using List.find?_some hfound
  rw [hfound, List.inj_on_of_nodup_map asmForms_nodup (List.mem_of_find?_eq_some hfound) h (eq_of_beq hname)]

/-- Each command's mnemonic and form are a row of the assembler's table. -/
theorem asmForm_mem (i : Instr) : (i.row.mnemonic, asmForm i) ∈ asmForms := by
  cases i <;>
    simp [asmForms, sysAndCmForms, ckAndCvForms, asmForm, Instr.row, fixedRow, operandRow, widthsRow]

/-- A command's operand text, where there is one, starts with a blank. -/
theorem operandText_head (i : Instr) : ∀ c ∈ (operandText i).head?, endsName c = true := by
  cases i <;> simp [operandText, byteText, endsName, isBlank]

theorem atEnd_of_head {c : Byte} (h : endsName c = false) (rest : Str) : atEnd (c :: rest) = false := by
  obtain ⟨hblank, hcomment⟩ := Bool.or_eq_false_iff.1 h
  simpa [atEnd, skipBlanks, hblank] using hcomment

theorem skipBlanks_of_head {c : Byte} (h : endsName c = false) (rest : Str) :
    skipBlanks (c :: rest) = c :: rest := by
  obtain ⟨hblank, -⟩ := Bool.or_eq_false_iff.1 h
  simp [skipBlanks, hblank]

/-- The text up to the first character that ends a name. -/
theorem span_name {name rest : Str} (hname : ∀ c ∈ name, endsName c = false)
    (hrest : ∀ c ∈ rest.head?, endsName c = true) :
    (name ++ rest).takeWhile (fun c => !endsName c) = name ∧
      (name ++ rest).dropWhile (fun c => !endsName c) = rest := by
  rw [List.takeWhile_append_of_pos (by simpa using hname), List.dropWhile_append_of_pos (by simpa using hname)]
  cases rest with
  | nil => simp
  | cons c cs =>
    have hc : endsName c = true := hrest c rfl
    rw [List.takeWhile_cons_of_neg (by simp [hc]), List.dropWhile_cons_of_neg (by simp [hc]), List.append_nil]
    exact ⟨rfl, rfl⟩

/-- A line that starts with a mnemonic of the table is read by the mnemonic's form. -/
theorem assembleLine_of_mem {entry : String × AsmForm} (h : entry ∈ asmForms) {rest : Str}
    (hrest : ∀ c ∈ rest.head?, endsName c = true) :
    assembleLine (ascii entry.1 ++ rest) = readOperands entry.2 rest := by
  obtain ⟨hne, hname⟩ := asmForms_name h
  have hfind := find_asmForms h
  generalize ascii entry.1 = name at hne hname hfind ⊢
  obtain ⟨htake, hdrop⟩ := span_name hname hrest
  obtain ⟨c, cs, rfl⟩ := List.exists_cons_of_ne_nil hne
  have hc : endsName c = false := hname c List.mem_cons_self
  rw [assembleLine, List.cons_append, atEnd_of_head hc, skipBlanks_of_head hc]
  simp only [Bool.false_eq_true, if_false]
  rw [← List.cons_append, htake, hdrop, hfind]

/-- Settles O5: the mnemonic selects the form, and the form reads the operand text back. -/
theorem assemblerReadsBackEveryCommand : Obligations.AssemblerReadsBackEveryCommand := fun i hi =>
  (assembleLine_of_mem (asmForm_mem i) (operandText_head i)).trans (readOperands_operandText hi)

end Sys2Proof.Machine
end

section
/-! PROOFS. The execution cycle of a write to `CMD` (40_control.md R57) and the system commands (R60 to R62). -/

namespace Sys2Proof.Machine

open Sys2Proof.Safety

/-! ## Under the lock -/

/-- Under the lock every command but the two of R112 is discarded. -/
theorem CommandEffect.eq_of_locked {i : Instr} {s t : State} (heff : CommandEffect s i t)
    (hlock : s.err ≠ .noError) (hrst : i ≠ .sysRst) (hclr : i ≠ .sysClrerr) : t = s := by
  cases heff with
  | discarded => rfl
  | nop => rfl
  | sysRst => exact absurd rfl hrst
  | sysClrerr => exact absurd rfl hclr
  | _ => contradiction

theorem exec_of_locked {i : Instr} {s : State} (hlock : s.err ≠ .noError) (hrst : i ≠ .sysRst)
    (hclr : i ≠ .sysClrerr) : exec i s = .next s := by
  obtain ⟨t, ht⟩ := exec_goes_on i s
  rw [ht, (exec_effect ht).eq_of_locked hlock hrst hclr]

/-! ## A write to `CMD` -/

theorem issue_of_command {w : Word} {i : Instr} (h : decode w = .command i) (s : State) :
    issue w s = exec i s := by
  rw [issue, h]

/-- Only the exact value of `SYS.RST` or `SYS.CLRERR` has an effect under the lock (R57, R61, R62). -/
theorem issue_of_locked {w : Word} {s : State} (hlock : s.err ≠ .noError) (hrst : w ≠ 0x00000100)
    (hclr : w ≠ 0x00000200) : issue w s = .next s := by
  cases hdec : decode w with
  | illegal why => exact (issue_of_illegal hdec s).trans (if_neg hlock)
  | command i =>
    obtain ⟨-, hw⟩ := encodeInvertsDecode w i hdec
    rw [issue_of_command hdec]
    refine exec_of_locked hlock (fun hi => hrst ?_) (fun hi => hclr ?_)
    · rw [← hw, hi]; rfl
    · rw [← hw, hi]; rfl

/-- The two values that pass the lock decode, so an illegal one that passes was written to a free block. -/
theorem unlocked_of_illegal {w : Word} {why : Illegal} {s : State} (hdec : decode w = .illegal why)
    (hpass : ¬ (s.err ≠ .noError ∧ w ≠ 0x00000100 ∧ w ≠ 0x00000200)) : s.err = .noError := by
  by_contra hlock
  refine hpass ⟨hlock, ?_, ?_⟩
  · rintro rfl
    exact nomatch hdec
  · rintro rfl
    exact nomatch hdec

/-- Settles O7, by whether the write passes the lock and then by what its value decodes to. -/
theorem commandWriteFollowsTheExecutionCycle : Obligations.CommandWriteFollowsTheExecutionCycle := by
  intro w s
  split
  next hlocked =>
    obtain ⟨hlock, hrst, hclr⟩ := hlocked
    exact issue_of_locked hlock hrst hclr
  next hpass =>
    split
    next why hdec => exact (issue_of_illegal hdec s).trans (if_pos (unlocked_of_illegal hdec hpass))
    next i hdec => exact issue_of_command hdec s

/-! ## A step that serves a write to `CMD` -/

/-- A step on a write of a command to `CMD` runs the command on the state without that access. -/
theorem step_of_command {s : State} {w : Word} {i : Instr} {rest : List BusEvent}
    (hdec : decode w = .command i) (hpend : s.pending = cmdWrite s w :: rest) :
    step s = answered .written (exec i (s.setPending rest)) := by
  rw [step_of_pending hpend, ← issue_of_command hdec]
  exact serve_write_window (s.setPending rest) w (off := 0x04) (by decide) (by decide)

/-- A 32-bit value is its own table word. -/
theorem ofNat_tableWord_toNat (w : Word) : BitVec.ofNat 32 (tableWord 32 w.toNat) = w := by
  rw [tableWord, Nat.mod_eq_of_lt w.isLt, BitVec.ofNat_toNat, BitVec.setWidth_eq]

theorem withFetchWord_toNat (s : State) (w : Word) :
    s.withFetchWord 32 w.toNat = s.setPending (cmdWrite s w :: s.pending) := by
  rw [State.withFetchWord, ofNat_tableWord_toNat]

/-- Settles O6: the oldest access is the write to `CMD`, as found or as `withFetchWord` placed it. -/
theorem stepRunsTheDecodedCommand : Obligations.StepRunsTheDecodedCommand := by
  intro s w i rest hdec
  refine ⟨step_of_command hdec, ?_⟩
  rw [withFetchWord_toNat]
  exact step_of_command hdec rfl

/-! ## A non-zero operand of a `none` command -/

theorem decodeCommandWord_sys (fn : BitVec 4) (d : Byte) :
    decodeCommandWord (commandWord 0 fn d) = decodeSys fn.toNat d := by
  simp [decodeCommandWord]

/-- The operand of a command word fills bits that are zero without it (R49). -/
theorem commandWord_zero_or (op fn : BitVec 4) (d : Byte) :
    (commandWord op fn 0).setWidth 32 ||| d.setWidth 32 = (commandWord op fn d).setWidth 32 := by
  ext k hk
  simp only [commandWord, BitVec.getElem_or, BitVec.getElem_setWidth, BitVec.getLsbD_append]
  interval_cases k <;> simp

/-- A command of the form `none` is illegal with an operand (30_encoding.md R50). -/
theorem illegalWithOperand_of_noneForm {i : Instr} {op fn : BitVec 4}
    (hword : encodeCommandWord i = commandWord op fn 0)
    (hform : ∀ d, decodeCommandWord (commandWord op fn d) = noneForm i d) : IllegalWithOperand i := by
  intro s d hfree hd
  have hdec : decode (encode i ||| d.setWidth 32) = .illegal .operandNotZero := by
    rw [encode, hword, commandWord_zero_or, decode_setWidth, hform, noneForm, if_neg hd]
  exact (issue_of_illegal hdec s).trans (if_pos hfree)

/-! ## The system commands -/

theorem exec_nop (s : State) : exec .nop s = .next s := by
  by_cases hfree : s.err = .noError
  · exact runRule_of_ok hfree .nop rfl
  · exact exec_of_locked hfree nofun nofun

/-- Settles O15: `SYS.RST` has no lock test, and a set bit in `D` or in the upper half makes its value illegal. -/
theorem softResetGivesEveryStateItsValue : Obligations.SoftResetGivesEveryStateItsValue :=
  ⟨fun _ => rfl, illegalWithOperand_of_noneForm rfl (decodeCommandWord_sys 1),
    decode_of_high_half_ne_zero (by decide), fun _ hlock => issue_of_locked hlock (by decide) (by decide)⟩

/-- Settles O31: `NOP` by the two sides of the lock, `SYS.CLRERR` from its definition, which has none. -/
theorem nopAndClearError : Obligations.NopAndClearError :=
  ⟨exec_nop, fun _ => rfl, illegalWithOperand_of_noneForm rfl (decodeCommandWord_sys 0),
    illegalWithOperand_of_noneForm rfl (decodeCommandWord_sys 2)⟩

end Sys2Proof.Machine
end

section
/-! PROOFS. The alphabet (41_charset.md R63, R64) and the charset mapper's commands (R65 to R70). -/

namespace Sys2Proof.Machine

open Sys2Proof.Safety

/-! ## The frame of the mapper's commands -/

/-- The five commands of 41_charset.md section 2. -/
abbrev IsCharsetCommand (i : Instr) : Prop :=
  i = .cmClr ∨ ∃ d, i = .cmEnc d ∨ i = .cmEncu d ∨ i = .cmDec d ∨ i = .cmCase d

theorem CommandEffect.sameSurroundings {s t : State} {i : Instr} (heff : CommandEffect s i t) :
    SameSurroundings s t := by
  cases heff <;> exact ⟨rfl, rfl, rfl, rfl⟩

theorem CommandEffect.charset_sameUnits {s t : State} {i : Instr} (heff : CommandEffect s i t)
    (hi : IsCharsetCommand i) : SameChecksumUnit s t ∧ SameConverter s t := by
  cases heff with
  | discarded | raised | cmClr | cmEnc | cmEncu | cmDec | cmCase =>
    exact ⟨⟨rfl, rfl, rfl⟩, rfl, rfl, rfl, rfl, rfl⟩
  | _ => simp [IsCharsetCommand] at hi

theorem CommandEffect.charset_appends_oq {s t : State} {i : Instr} (heff : CommandEffect s i t)
    (hi : IsCharsetCommand i) : t.oq = s.oq ∨ ∃ x, t.oq = s.oq ++ [x] := by
  cases heff with
  | discarded | raised | cmClr | cmCase => exact .inl rfl
  | cmEnc | cmEncu | cmDec => exact .inr ⟨_, rfl⟩
  | _ => simp [IsCharsetCommand] at hi

theorem CommandEffect.caseCheck_keeps_oq {s t : State} {i : Instr} (heff : CommandEffect s i t)
    (hi : i = .cmClr ∨ ∃ d, i = .cmCase d) : t.oq = s.oq := by
  cases heff with
  | discarded | raised | cmClr | cmCase => rfl
  | _ => simp at hi

theorem CommandEffect.encode_keeps_caseSeen {s t : State} {i : Instr} (heff : CommandEffect s i t)
    (hi : ∃ d, i = .cmEnc d ∨ i = .cmEncu d) : t.caseSeen = s.caseSeen := by
  by_contra hne
  obtain ⟨d, rfl | rfl⟩ := hi <;> simpa using heff.writes_caseSeen hne

/-- Settles O29, by cases on what a command of the mapper can do. -/
theorem charsetCommandsFrame : Obligations.CharsetCommandsFrame := by
  intro i s t hi hexec
  have heff : CommandEffect s i t := exec_effect hexec
  obtain ⟨hck, hcv⟩ := heff.charset_sameUnits hi
  exact ⟨hck, hcv, heff.sameSurroundings, heff.charset_appends_oq hi, heff.caseCheck_keeps_oq,
    heff.encode_keeps_caseSeen⟩

/-! ## The alphabet and its inverse -/

theorem charset_getElem?_toNat (v : Symbol) : charset[v.toNat]? = some (charOf v) := by
  have hv : v.toNat < charset.length := v.isLt
  rw [charOf, List.getD_eq_getElem?_getD, List.getElem?_eq_getElem hv, Option.getD_some]

/-- The alphabet names each symbol once, so the place of a symbol's character is the symbol. -/
theorem findIdx?_charOf (v : Symbol) : charset.findIdx? (· == charOf v) = some v.toNat := by
  revert v
  decide

/-- The alphabet is written in lower case. -/
theorem lower_charOf (v : Symbol) : lower (charOf v) = charOf v := by
  revert v
  decide

theorem lower_upper_charOf (v : Symbol) : lower (upper (charOf v)) = charOf v := by
  revert v
  decide

theorem symOf_eq_some {c : Byte} {v : Symbol} : symOf c = some v ↔ lower c = charOf v := by
  constructor
  · intro h
    obtain ⟨k, hfind, rfl⟩ := Option.map_eq_some_iff.1 h
    obtain ⟨hk, hchar, -⟩ := List.findIdx?_eq_some_iff_getElem.1 hfind
    have hplace : (BitVec.ofNat 5 k).toNat = k := Nat.mod_eq_of_lt hk
    have hget := charset_getElem?_toNat (BitVec.ofNat 5 k)
    rw [hplace, List.getElem?_eq_getElem hk, Option.some.injEq] at hget
    exact (eq_of_beq hchar).symm.trans hget
  · intro h
    rw [symOf, h, findIdx?_charOf, Option.map_some, BitVec.ofNat_toNat, BitVec.setWidth_eq]

/-- Settles O32: the table's own facts by evaluation over the 32 symbols, the inverse by `symOf_eq_some`. -/
theorem alphabetAndItsInverse : Obligations.AlphabetAndItsInverse :=
  ⟨by decide, rfl, by decide, charset_getElem?_toNat,
    fun v => ⟨symOf_eq_some.2 (lower_charOf v), symOf_eq_some.2 (lower_upper_charOf v)⟩,
    fun _ _ => symOf_eq_some, by decide⟩

/-! ## The checks a rule makes in order -/

theorem bind_of_ok {α β : Type} {x : Except ErrCode α} {a : α} (h : x = .ok a)
    (f : α → Except ErrCode β) : (x >>= f) = f a := by
  rw [h]
  rfl

theorem bind_of_error {α β : Type} {x : Except ErrCode α} {e : ErrCode} (h : x = .error e)
    (f : α → Except ErrCode β) : (x >>= f) = .error e := by
  rw [h]
  rfl

theorem inBand_eq_true {c : Byte} : inBand c = true ↔ 33 ≤ c.toNat ∧ c.toNat ≤ 126 := by
  rw [inBand, Bool.and_eq_true, decide_eq_true_iff, decide_eq_true_iff]

theorem charOperand_of_outOfBand {c : Byte} (h : ¬(33 ≤ c.toNat ∧ c.toNat ≤ 126)) :
    charOperand c = .error .ascii :=
  charOperand_eq_error.2 ⟨Bool.eq_false_iff.2 (mt inBand_eq_true.1 h), rfl⟩

theorem charOperand_of_inBand {c : Byte} (hlow : 33 ≤ c.toNat) (hhigh : c.toNat ≤ 126) :
    charOperand c = .ok c :=
  charOperand_eq_ok.2 ⟨inBand_eq_true.2 ⟨hlow, hhigh⟩, rfl⟩

/-- A letter of the other class than the tracked one is refused (41_charset.md R65). -/
theorem trackCase_of_mixesCase {s : State} {c : Byte} (h : mixesCase s c = true) :
    trackCase s.caseSeen c = .error .mixedCase := by
  obtain ⟨hletter, hseen, hother⟩ := of_decide_eq_true h
  exact trackCase_eq_error.2 ⟨hletter, hseen, hother, rfl⟩

/-- Any other character is accepted, and a letter is tracked (41_charset.md R65). -/
theorem trackCase_of_not_mixesCase {s : State} {c : Byte} (h : mixesCase s c = false) :
    trackCase s.caseSeen c = .ok (if caseClass c = .none then s.caseSeen else caseClass c) := by
  have hno := of_decide_eq_false h
  refine trackCase_eq_ok.2 ⟨?_, rfl⟩
  by_contra hmix
  simp only [not_or] at hmix
  exact hno hmix

/-! ## `CM.ENC` and `CM.ENCU` -/

theorem charOf_setWidth {v : Byte} (h : v.toNat ≤ 31) : charOf (v.setWidth 5) = charset.getD v.toNat 0 := by
  rw [charOf, BitVec.toNat_setWidth, Nat.mod_eq_of_lt (Nat.lt_succ_of_le h)]

theorem encodeSymbol_pushes {fold : Byte → Byte} {v : Byte} {s : State} (hv : v.toNat ≤ 31)
    (hroom : s.oq.length + 1 ≤ s.oqDepth) :
    encodeSymbol fold v s = .ok (s.enqueue [fold (charset.getD v.toNat 0)]) :=
  encodeSymbol_eq_ok.2 ⟨hv, hroom, by rw [charOf_setWidth hv]⟩

theorem encodeSymbol_of_range {v : Byte} (hv : 31 < v.toNat) (fold : Byte → Byte) (s : State) :
    encodeSymbol fold v s = .error .symRange :=
  bind_of_error (symOperand_eq_error.2 ⟨hv, rfl⟩) _

theorem encodeSymbol_of_full {v : Byte} {s : State} (hv : v.toNat ≤ 31)
    (hfull : s.oqDepth < s.oq.length + 1) (fold : Byte → Byte) :
    encodeSymbol fold v s = .error .oqOverflow :=
  (bind_of_ok (symOperand_eq_ok.2 ⟨hv, rfl⟩) _).trans (State.push_eq_error.2 ⟨hfull, rfl⟩)

/-- Settles O33: `CM.ENC` and `CM.ENCU` run one rule, with two ways to fold the character. -/
theorem symbolIsMappedToItsCharacter : Obligations.SymbolIsMappedToItsCharacter := by
  intro v s hfree
  refine ⟨fun hv hroom => ?_, fun hv => ?_, fun hv hfull => ?_, ?_, ?_⟩
  · exact ⟨runRule_of_ok hfree _ (encodeSymbol_pushes hv hroom),
      runRule_of_ok hfree _ (encodeSymbol_pushes hv hroom)⟩
  · exact ⟨runRule_of_error hfree _ (encodeSymbol_of_range hv id s),
      runRule_of_error hfree _ (encodeSymbol_of_range hv upper s)⟩
  · exact ⟨runRule_of_error hfree _ (encodeSymbol_of_full hv hfull id),
      runRule_of_error hfree _ (encodeSymbol_of_full hv hfull upper)⟩
  · exact fun _ hlock => exec_of_locked hlock nofun nofun
  · exact fun _ hlock => exec_of_locked hlock nofun nofun

/-! ## `CM.DEC` -/

section

variable {c : Byte} {s : State} {e : ErrCode}

theorem decodeChar_of_charOperand_error (hband : charOperand c = .error e) :
    decodeChar c s = .error e :=
  bind_of_error hband _

theorem decodeChar_of_trackCase_error (hband : charOperand c = .ok c)
    (hcase : trackCase s.caseSeen c = .error e) : decodeChar c s = .error e :=
  (bind_of_ok hband _).trans (bind_of_error hcase _)

variable {k : CaseSeen}

theorem decodeChar_of_dataSymbol_error (hband : charOperand c = .ok c)
    (hcase : trackCase s.caseSeen c = .ok k) (hsym : dataSymbol c = .error e) : decodeChar c s = .error e :=
  (bind_of_ok hband _).trans <| (bind_of_ok hcase _).trans (bind_of_error hsym _)

theorem decodeChar_of_push_error {v : Symbol} (hband : charOperand c = .ok c)
    (hcase : trackCase s.caseSeen c = .ok k) (hsym : dataSymbol c = .ok v)
    (hpush : s.push [v.setWidth 8] = .error e) : decodeChar c s = .error e :=
  (bind_of_ok hband _).trans <| (bind_of_ok hcase _).trans <|
    (bind_of_ok hsym _).trans (bind_of_error hpush _)

end

/-- Settles O34, following the rule's four checks in order. -/
theorem characterIsMappedToItsSymbol : Obligations.CharacterIsMappedToItsSymbol := by
  intro c s hfree
  refine ⟨fun hout => ?_, fun hlow hhigh => ?_, fun _ hlock => exec_of_locked hlock nofun nofun⟩
  · exact runRule_of_error hfree _ (decodeChar_of_charOperand_error (charOperand_of_outOfBand hout))
  have hband : charOperand c = .ok c := charOperand_of_inBand hlow hhigh
  refine ⟨fun hmix => ?_, fun hsame => ?_⟩
  · exact runRule_of_error hfree _ (decodeChar_of_trackCase_error hband (trackCase_of_mixesCase hmix))
  have hcase := trackCase_of_not_mixesCase hsame
  refine ⟨fun hnone => ?_, fun v hsym => ⟨fun hfull => ?_, fun hroom => ?_⟩⟩
  · exact runRule_of_error hfree _
      (decodeChar_of_dataSymbol_error hband hcase (dataSymbol_eq_error.2 ⟨hnone, rfl⟩))
  · exact runRule_of_error hfree _
      (decodeChar_of_push_error hband hcase (dataSymbol_eq_ok.2 hsym)
        (State.push_eq_error.2 ⟨hfull, rfl⟩))
  · have hrule := decodeChar_eq_ok.2 ⟨inBand_eq_true.2 ⟨hlow, hhigh⟩, _, hcase, v, hsym, hroom, rfl⟩
    rw [BitVec.ofNat_toNat]
    exact runRule_of_ok hfree _ hrule

/-! ## `CM.CLR` and `CM.CASE` -/

theorem checkChar_of_charOperand_error {c : Byte} {s : State} {e : ErrCode}
    (hband : charOperand c = .error e) : checkChar c s = .error e :=
  bind_of_error hband _

theorem checkChar_of_trackCase_error {c : Byte} {s : State} {e : ErrCode} (hband : charOperand c = .ok c)
    (hcase : trackCase s.caseSeen c = .error e) : checkChar c s = .error e :=
  (bind_of_ok hband _).trans (bind_of_error hcase _)

/-- Settles O35: `CM.CLR` always commits, and `CM.CASE` makes the first two checks of `CM.DEC`. -/
theorem caseIsClearedAndCheckedWithoutMapping : Obligations.CaseIsClearedAndCheckedWithoutMapping := by
  refine ⟨⟨fun _ hfree => runRule_of_ok hfree .cmClr (rule := clearCase) rfl,
    fun _ hlock => exec_of_locked hlock nofun nofun,
    illegalWithOperand_of_noneForm rfl (decodeCommandWord_cm 0)⟩, fun c s hfree => ?_⟩
  refine ⟨fun hout => ?_, fun hlow hhigh => ⟨fun hmix => ?_, fun hsame => ?_⟩,
    fun _ hlock => exec_of_locked hlock nofun nofun⟩
  · exact runRule_of_error hfree _ (checkChar_of_charOperand_error (charOperand_of_outOfBand hout))
  · exact runRule_of_error hfree _
      (checkChar_of_trackCase_error (charOperand_of_inBand hlow hhigh) (trackCase_of_mixesCase hmix))
  · exact runRule_of_ok hfree _
      (checkChar_eq_ok.2 ⟨inBand_eq_true.2 ⟨hlow, hhigh⟩, _, trackCase_of_not_mixesCase hsame, rfl⟩)

end Sys2Proof.Machine
end

section
/-! PROOFS. The checksum step as a function: its bits (42_checksum.md R72), its linearity over GF(2) (R84) and
the last six symbols of a string (R83). -/

namespace Sys2Proof.Machine

/-! ## The step, bit by bit -/

theorem reduction_getLsbD (b : BitVec 5) (i k : Nat) :
    (reduction b i).getLsbD k = (b.getLsbD i && (gen i).getLsbD k) := by
  unfold reduction
  cases b.getLsbD i <;> simp

theorem shifted_getLsbD (c : Checksum) (v : Symbol) {k : Nat} (hk : k < 30) :
    (c.extractLsb' 0 25 ++ v).getLsbD k = if k < 5 then v.getLsbD k else c.getLsbD (k - 5) := by
  have hrest : k - 5 < 25 := by omega
  rw [BitVec.getLsbD_append]
  simp [hrest]

/-- Settles O36, from the bits of each summand of the step. -/
theorem checksumStepBitByBit : Obligations.ChecksumStepBitByBit := by
  intro c v k hk
  simp only [stepChk, BitVec.getLsbD_xor, reduction_getLsbD, shifted_getLsbD c v hk,
    BitVec.getLsbD_extractLsb']
  rfl

/-! ## Linearity -/

theorem reduction_xor (b1 b2 : BitVec 5) (i : Nat) :
    reduction (b1 ^^^ b2) i = reduction b1 i ^^^ reduction b2 i := by
  refine BitVec.eq_of_getLsbD_eq fun k _ => ?_
  simp only [reduction_getLsbD, BitVec.getLsbD_xor, Bool.and_xor_distrib_right]

theorem stepChk_xor (c1 c2 : Checksum) (v1 v2 : Symbol) :
    stepChk (c1 ^^^ c2) (v1 ^^^ v2) = stepChk c1 v1 ^^^ stepChk c2 v2 := by
  simp only [stepChk, BitVec.extractLsb'_xor, reduction_xor, ← BitVec.xor_append]
  ac_rfl

/-- The same symbol on both sides cancels. -/
theorem stepChk_xor_same (c1 c2 : Checksum) (v : Symbol) :
    stepChk c1 v ^^^ stepChk c2 v = stepChk (c1 ^^^ c2) 0 := by
  rw [← stepChk_xor, BitVec.xor_self]
  rfl

theorem stepAll_cons (c : Checksum) (v : Symbol) (vs : List Symbol) :
    stepAll c (v :: vs) = stepAll (stepChk c v) vs := rfl

theorem stepAll_append (c : Checksum) (vs ws : List Symbol) :
    stepAll c (vs ++ ws) = stepAll (stepAll c vs) ws := List.foldl_append

theorem stepAll_xor (c1 c2 : Checksum) {a b : List Symbol} (hlen : a.length = b.length) :
    stepAll (c1 ^^^ c2) (a.zipWith (· ^^^ ·) b) = stepAll c1 a ^^^ stepAll c2 b := by
  induction a generalizing c1 c2 b with
  | nil =>
    obtain rfl := List.length_eq_zero_iff.1 hlen.symm
    rfl
  | cons v vs ih =>
    cases b with
    | nil => exact nomatch hlen
    | cons w ws =>
      rw [List.zipWith_cons_cons, stepAll_cons, stepChk_xor]
      exact ih _ _ (Nat.succ.inj hlen)

/-- Settles O42: the iteration starts from 1 in one string and from 0 in the other. -/
theorem checksumStepIsLinear : Obligations.ChecksumStepIsLinear :=
  ⟨stepChk_xor, fun _ _ hlen => stepAll_xor chkInit 0 hlen⟩

/-! ## A step that only shifts -/

theorem append_toNat {n : Nat} (x : BitVec n) (v : Symbol) : (x ++ v).toNat = 32 * x.toNat + v.toNat := by
  rw [BitVec.toNat_append, ← Nat.shiftLeft_add_eq_or_of_lt v.isLt, Nat.shiftLeft_eq, Nat.mul_comm]

/-- While the five bits that leave are zero, the symbol is appended. -/
theorem stepChk_toNat_of_lt {c : Checksum} (h : c.toNat < 2 ^ 25) (v : Symbol) :
    (stepChk c v).toNat = 32 * c.toNat + v.toNat := by
  have hleave : c.extractLsb' 25 5 = 0 := by
    refine BitVec.eq_of_toNat_eq ?_
    rw [BitVec.extractLsb'_toNat, Nat.shiftRight_eq_div_pow, Nat.div_eq_of_lt h]
    rfl
  have hshift : stepChk c v = c.extractLsb' 0 25 ++ v := by simp [stepChk, hleave, reduction]
  rw [hshift, append_toNat, BitVec.extractLsb'_toNat, Nat.shiftRight_zero, Nat.mod_eq_of_lt h]

theorem stepChk_zero (v : Symbol) : stepChk 0 v = v.setWidth 30 := by
  refine BitVec.eq_of_toNat_eq ?_
  rw [stepChk_toNat_of_lt (by decide), BitVec.toNat_setWidth_of_le (by decide)]
  exact Nat.zero_add _

theorem stepChk_setWidth {n : Nat} (hn : n ≤ 25) (x : BitVec n) (v : Symbol) :
    stepChk (x.setWidth 30) v = (x ++ v).setWidth 30 := by
  have hx : x.toNat < 2 ^ 25 := x.isLt.trans_le (Nat.pow_le_pow_right (by decide) hn)
  have hwide : (x.setWidth 30).toNat = x.toNat := BitVec.toNat_setWidth_of_le (by omega)
  refine BitVec.eq_of_toNat_eq ?_
  rw [stepChk_toNat_of_lt (hwide ▸ hx), hwide, BitVec.toNat_setWidth_of_le (by omega), append_toNat]

/-! ## The last six symbols -/

theorem stepAll_zero_six (s0 s1 s2 s3 s4 s5 : Symbol) :
    stepAll 0 [s0, s1, s2, s3, s4, s5] = (s0 ++ s1 ++ s2 ++ s3 ++ s4 ++ s5 : BitVec 30) := by
  simp only [stepAll_cons, stepChk_zero]
  rw [stepChk_setWidth (by decide), stepChk_setWidth (by decide), stepChk_setWidth (by decide),
    stepChk_setWidth (by decide), stepChk_setWidth (by decide)]
  exact BitVec.setWidth_eq _

theorem stepAll_six (p : Checksum) (s0 s1 s2 s3 s4 s5 : Symbol) :
    stepAll p [s0, s1, s2, s3, s4, s5] =
      stepAll p [0, 0, 0, 0, 0, 0] ^^^ (s0 ++ s1 ++ s2 ++ s3 ++ s4 ++ s5 : BitVec 30) := by
  rw [← stepAll_zero_six, ← stepAll_xor p 0 (a := [0, 0, 0, 0, 0, 0]) (b := [s0, s1, s2, s3, s4, s5]) rfl]
  simp

/-- The six symbols of a checksum, most significant first, are all of its bits. -/
theorem checksumSymbol_append (r : Checksum) :
    (checksumSymbol r 0 ++ checksumSymbol r 1 ++ checksumSymbol r 2 ++ checksumSymbol r 3 ++
      checksumSymbol r 4 ++ checksumSymbol r 5 : BitVec 30) = r := by
  refine BitVec.eq_of_toNat_eq ?_
  rw [append_toNat, append_toNat, append_toNat, append_toNat, append_toNat]
  simp only [checksumSymbol, BitVec.extractLsb'_toNat, Nat.shiftRight_eq_div_pow]
  omega

theorem stepAll_checksumSymbols (p r : Checksum) :
    stepAll p (checksumSymbols r) = stepAll p [0, 0, 0, 0, 0, 0] ^^^ r :=
  (stepAll_six p _ _ _ _ _ _).trans (congrArg _ (checksumSymbol_append r))

/-- The symbols of `t XOR K` bring the accumulator to `K`. -/
theorem stepAll_checksumSymbols_xor (p K : Checksum) :
    stepAll p (checksumSymbols (stepAll p [0, 0, 0, 0, 0, 0] ^^^ K)) = K := by
  rw [stepAll_checksumSymbols, ← BitVec.xor_assoc, BitVec.xor_self, BitVec.zero_xor]

/-- Settles O41: by linearity from the accumulator 0, where six symbols are only shifted in. -/
theorem lastSixSymbolsEnterByXor : Obligations.LastSixSymbolsEnterByXor :=
  ⟨stepAll_checksumSymbols_xor, stepAll_six⟩

end Sys2Proof.Machine
end

section
/-! PROOFS. The errors a checksum detects (42_checksum.md R85). By linearity two strings end in one accumulator
exactly when the XOR of their accumulators comes to 0, so each proof follows that XOR. -/

namespace Sys2Proof.Machine

open Sys2Proof.Safety

/-! ## A step can be undone -/

/-- The constants' low five bits are independent over GF(2). -/
theorem leaving_eq_zero : ∀ b : BitVec 5,
    (reduction b 0 ^^^ reduction b 1 ^^^ reduction b 2 ^^^ reduction b 3 ^^^
      reduction b 4).extractLsb' 0 5 = 0 → b = 0 := by decide

theorem extractLsb'_append_low {n : Nat} (x : BitVec n) (v : Symbol) : (x ++ v).extractLsb' 0 5 = v := by
  refine BitVec.eq_of_toNat_eq ?_
  rw [BitVec.extractLsb'_toNat, append_toNat]
  omega

theorem eq_zero_of_stepChk_zero {c : Checksum} (h : stepChk c 0 = 0) : c = 0 := by
  have hlow : (stepChk c 0).extractLsb' 0 5 = 0 := congrArg (BitVec.extractLsb' 0 5) h
  simp only [stepChk, BitVec.extractLsb'_xor, extractLsb'_append_low] at hlow
  have hleave : c.extractLsb' 25 5 = 0 := by
    refine leaving_eq_zero _ ?_
    simpa [BitVec.extractLsb'_xor] using hlow
  have htop : c.toNat / 2 ^ 25 % 2 ^ 5 = 0 := by
    rw [← Nat.shiftRight_eq_div_pow, ← BitVec.extractLsb'_toNat, hleave]
    rfl
  have hnat : 32 * c.toNat + 0 = 0 :=
    (stepChk_toNat_of_lt (by omega) 0).symm.trans (congrArg BitVec.toNat h)
  exact BitVec.eq_of_toNat_eq (show c.toNat = 0 by omega)

theorem stepChk_left_inj {c1 c2 : Checksum} (v : Symbol) (h : stepChk c1 v = stepChk c2 v) : c1 = c2 := by
  refine BitVec.xor_eq_zero_iff.1 (eq_zero_of_stepChk_zero ?_)
  rw [← stepChk_xor_same c1 c2 v, h, BitVec.xor_self]
  rfl

theorem stepAll_left_inj {c1 c2 : Checksum} {vs : List Symbol} (h : stepAll c1 vs = stepAll c2 vs) :
    c1 = c2 := by
  induction vs generalizing c1 c2 with
  | nil => exact h
  | cons v vs ih => exact stepChk_left_inj v (ih h)

/-! ## Errors within six symbols -/

/-- Strings so short that no bit of the accumulators' XOR leaves meet only if they are the same. -/
theorem eq_of_stepAll_eq {c1 c2 : Checksum} {a b : List Symbol} (hlen : a.length = b.length)
    (hshort : a.length ≤ 6) (hroom : (c1 ^^^ c2).toNat < 2 ^ (30 - 5 * a.length))
    (h : stepAll c1 a = stepAll c2 b) : c1 = c2 ∧ a = b := by
  induction a generalizing c1 c2 b with
  | nil =>
    obtain rfl := List.length_eq_zero_iff.1 hlen.symm
    exact ⟨h, rfl⟩
  | cons x xs ih =>
    cases b with
    | nil => exact nomatch hlen
    | cons y ys =>
      rw [List.length_cons] at hshort hroom
      have hexp : 30 - 5 * xs.length = 30 - 5 * (xs.length + 1) + 5 := by omega
      have hfit : (c1 ^^^ c2).toNat < 2 ^ 25 :=
        hroom.trans_le (Nat.pow_le_pow_right (by decide) (by omega))
      have hstep : (stepChk c1 x ^^^ stepChk c2 y).toNat = 32 * (c1 ^^^ c2).toNat + (x ^^^ y).toNat := by
        rw [← stepChk_xor, stepChk_toNat_of_lt hfit]
      have hroom' : (stepChk c1 x ^^^ stepChk c2 y).toNat < 2 ^ (30 - 5 * xs.length) := by
        have hxy : (x ^^^ y).toNat < 32 := (x ^^^ y).isLt
        rw [hstep, hexp, Nat.pow_add]
        omega
      obtain ⟨hchk, rfl⟩ := ih (Nat.succ.inj hlen) (by omega) hroom' h
      rw [hchk, BitVec.xor_self, BitVec.toNat_zero, eq_comm, Nat.add_eq_zero_iff] at hstep
      obtain ⟨hc, hv⟩ := hstep
      have hsame : c1 ^^^ c2 = 0 :=
        BitVec.eq_of_toNat_eq ((Nat.mul_eq_zero.1 hc).resolve_left (by decide))
      have hsym : x ^^^ y = 0 := BitVec.eq_of_toNat_eq hv
      rw [BitVec.xor_eq_zero_iff.1 hsame, BitVec.xor_eq_zero_iff.1 hsym]
      exact ⟨rfl, rfl⟩

theorem stepChk_right_inj {c : Checksum} {v w : Symbol} (h : stepChk c v = stepChk c w) : v = w := by
  have hroom : (c ^^^ c).toNat < 2 ^ (30 - 5 * [v].length) := by
    rw [BitVec.xor_self]
    exact Nat.two_pow_pos _
  exact (List.cons.inj (eq_of_stepAll_eq (a := [v]) (b := [w]) rfl (by simp) hroom h).2).1

/-- A change within six consecutive symbols, as a burst and a swap are, changes the accumulator. -/
theorem polymod_ne_of_burst {pre e1 e2 : List Symbol} (post : List Symbol)
    (hlen : e1.length = e2.length) (hshort : e1.length ≤ 6) (hne : e1 ≠ e2) :
    polymod (pre ++ e1 ++ post) ≠ polymod (pre ++ e2 ++ post) := by
  intro h
  simp only [polymod, stepAll_append] at h
  refine hne (eq_of_stepAll_eq hlen hshort ?_ (stepAll_left_inj h)).2
  rw [BitVec.xor_self]
  exact Nat.two_pow_pos _

/-! ## Two errors far apart -/

/-- Through each of `n` zero steps the accumulator keeps a bit above its low symbol. -/
def staysWide : (n : Nat) → Checksum → Bool
  | 0, _ => true
  | n + 1, c => decide (32 ≤ (stepChk c 0).toNat) && staysWide n (stepChk c 0)

theorem staysWide_succ {n : Nat} {c : Checksum} :
    staysWide (n + 1) c = true ↔ 32 ≤ (stepChk c 0).toNat ∧ staysWide n (stepChk c 0) = true := by
  rw [staysWide, Bool.and_eq_true, decide_eq_true_iff]

/-- R85's exhaustive evaluation: no symbol's error comes back to a single symbol within 89 steps. -/
theorem staysWide_symbol : ∀ v : Symbol, v ≠ 0 → staysWide 89 (v.setWidth 30) = true := by decide +kernel

/-- An error that is wider than a symbol is not undone by the next one. -/
theorem stepChk_ne_zero_of_wide {c : Checksum} (h : 32 ≤ (stepChk c 0).toNat) (v : Symbol) :
    stepChk c v ≠ 0 := by
  intro hzero
  have hsum : stepChk c 0 = stepChk c v ^^^ stepChk 0 v := by
    rw [stepChk_xor_same]
    simp
  have hnarrow : stepChk c 0 = v.setWidth 30 := by
    rw [hsum, hzero, stepChk_zero]
    exact BitVec.zero_xor
  rw [hnarrow, BitVec.toNat_setWidth_of_le (by decide)] at h
  exact absurd v.isLt (by omega)

theorem differences_cons_same (x : Symbol) (a b : List Symbol) :
    differences (x :: a) (x :: b) = differences a b := by
  simp [differences]

theorem differences_cons_of_ne {x y : Symbol} (hne : x ≠ y) (a b : List Symbol) :
    differences (x :: a) (y :: b) = differences a b + 1 := by
  simp [differences, hne]

theorem eq_of_differences_eq_zero {a b : List Symbol} (hlen : a.length = b.length)
    (h : differences a b = 0) : a = b := by
  induction a generalizing b with
  | nil => exact (List.length_eq_zero_iff.1 hlen.symm).symm
  | cons x xs ih =>
    cases b with
    | nil => exact nomatch hlen
    | cons y ys =>
      by_cases hxy : x = y
      · subst hxy
        rw [differences_cons_same] at h
        rw [ih (Nat.succ.inj hlen) h]
      · rw [differences_cons_of_ne hxy] at h
        exact nomatch h

/-- After an error that stays wide, one more error does not bring the accumulators together. -/
theorem stepAll_ne_of_one_more {n : Nat} {c1 c2 : Checksum} {a b : List Symbol}
    (hlen : a.length = b.length) (hn : a.length ≤ n) (hwide : staysWide n (c1 ^^^ c2) = true)
    (hne : c1 ≠ c2) (hdiff : differences a b ≤ 1) : stepAll c1 a ≠ stepAll c2 b := by
  induction a generalizing n c1 c2 b with
  | nil =>
    obtain rfl := List.length_eq_zero_iff.1 hlen.symm
    exact hne
  | cons x xs ih =>
    cases n with
    | zero => exact nomatch hn
    | succ n =>
      cases b with
      | nil => exact nomatch hlen
      | cons y ys =>
        have hlen' : xs.length = ys.length := Nat.succ.inj hlen
        obtain ⟨hfirst, hrest⟩ := staysWide_succ.1 hwide
        by_cases hxy : x = y
        · subst hxy
          rw [differences_cons_same] at hdiff
          rw [← stepChk_xor_same c1 c2 x] at hrest
          rw [stepAll_cons, stepAll_cons]
          exact ih hlen' (Nat.le_of_succ_le_succ hn) hrest (fun h => hne (stepChk_left_inj x h)) hdiff
        · rw [differences_cons_of_ne hxy] at hdiff
          obtain rfl := eq_of_differences_eq_zero hlen' (by omega)
          intro h
          have hstep : stepChk c1 x = stepChk c2 y := stepAll_left_inj h
          refine stepChk_ne_zero_of_wide hfirst (x ^^^ y) ?_
          rw [stepChk_xor, hstep, BitVec.xor_self]
          rfl

/-- Skipping the equal symbols in front, the first error is one symbol's and stays wide. -/
theorem stepAll_ne_of_differences {c : Checksum} {a b : List Symbol} (hlen : a.length = b.length)
    (hlong : a.length ≤ 90) (hdiff : differences a b = 1 ∨ differences a b = 2) :
    stepAll c a ≠ stepAll c b := by
  induction a generalizing c b with
  | nil => simp [differences] at hdiff
  | cons x xs ih =>
    cases b with
    | nil => exact nomatch hlen
    | cons y ys =>
      have hlen' : xs.length = ys.length := Nat.succ.inj hlen
      have hlong' : xs.length ≤ 89 := Nat.le_of_succ_le_succ hlong
      by_cases hxy : x = y
      · subst hxy
        rw [differences_cons_same] at hdiff
        exact ih hlen' (by omega) hdiff
      · rw [differences_cons_of_ne hxy] at hdiff
        have herr : stepChk c x ^^^ stepChk c y = (x ^^^ y).setWidth 30 := by
          rw [← stepChk_xor, BitVec.xor_self]
          exact stepChk_zero _
        have hxor : x ^^^ y ≠ 0 := mt BitVec.xor_eq_zero_iff.1 hxy
        have hstep : stepChk c x ≠ stepChk c y := fun h => hxy (stepChk_right_inj h)
        have hwide : staysWide 89 (stepChk c x ^^^ stepChk c y) = true := herr ▸ staysWide_symbol _ hxor
        rw [stepAll_cons, stepAll_cons]
        exact stepAll_ne_of_one_more hlen' hlong' hwide hstep (by omega)

/-- Settles O43: substitutions by the XOR of the accumulators after the first, a burst and a swap as a change
within six symbols (which holds at any length). -/
theorem checksumDetectsErrors : Obligations.ChecksumDetectsErrors := by
  refine ⟨fun _ _ hlen hlong hdiff => stepAll_ne_of_differences hlen hlong hdiff,
    fun _ _ _ post _ hlen hshort hne => polymod_ne_of_burst post hlen (by omega) hne,
    fun _ post _ _ _ hne => polymod_ne_of_burst post rfl (by simp) fun h => hne (List.cons.inj h).1⟩

end Sys2Proof.Machine
end

section
/-! PROOFS. The checksum generator's commands (42_checksum.md R77 to R82), and the creation and verification of
a checksum on the block (R75, R76). -/

namespace Sys2Proof.Machine

open Sys2Proof.Safety

/-! ## The frame of the checksum generator's commands -/

/-- The six commands of 42_checksum.md section 2. -/
abbrev IsChecksumCommand (i : Instr) : Prop :=
  i = .ckInit ∨ i = .ckFin ∨ i = .ckVer ∨ ∃ d, i = .ckStep d ∨ i = .ckHrph d ∨ i = .ckHrpl d

theorem CommandEffect.checksum_frame {s t : State} {i : Instr} (heff : CommandEffect s i t)
    (hi : IsChecksumCommand i) : t.caseSeen = s.caseSeen ∧ SameConverter s t ∧ t.oq = s.oq := by
  cases heff with
  | discarded | raised | verifyFailed | ckInit | ckStep | ckHrph | ckHrpl | ckFin | ckVer =>
    exact ⟨rfl, ⟨rfl, rfl, rfl, rfl, rfl⟩, rfl⟩
  | _ => simp [IsChecksumCommand] at hi

/-- `SYS.RST` writes every piece of the unit and is not one of its commands. -/
theorem IsChecksumCommand.ne_sysRst {i : Instr} (hi : IsChecksumCommand i) : i ≠ .sysRst := by
  rintro rfl
  simp [IsChecksumCommand] at hi

theorem CommandEffect.finish_verify_keep_chk {s t : State} {i : Instr} (heff : CommandEffect s i t)
    (hi : i = .ckFin ∨ i = .ckVer) : t.chk = s.chk := by
  by_contra hne
  obtain rfl | rfl := hi <;> simpa using heff.writes_chk hne

/-- Settles O28, by cases on what a command of the generator can do and on who writes its registers. -/
theorem checksumCommandsFrame : Obligations.ChecksumCommandsFrame := by
  intro i s t hi hexec
  have heff : CommandEffect s i t := exec_effect hexec
  obtain ⟨hcase, hcv, hoq⟩ := heff.checksum_frame hi
  refine ⟨hcase, hcv, hoq, heff.sameSurroundings, fun hfin => ?_, fun hver => ?_,
    heff.finish_verify_keep_chk⟩
  · by_contra hne
    exact (heff.writes_ckres hne).elim (IsChecksumCommand.ne_sysRst hi) hfin
  · by_contra hne
    exact (heff.writes_ckok hne).elim (IsChecksumCommand.ne_sysRst hi) hver

/-! ## What each command does to an unlocked block -/

section

variable {s : State}

theorem exec_ckInit (hfree : s.err = .noError) : exec .ckInit s = .next (s.setChk chkInit) :=
  runRule_of_ok hfree .ckInit (rule := initChecksum) rfl

theorem exec_ckStep (hfree : s.err = .noError) {v : Byte} (hv : v.toNat ≤ 31) :
    exec (.ckStep v) s = .next (s.setChk (stepChk s.chk (v.setWidth 5))) :=
  runRule_of_ok hfree (.ckStep v) (foldSymbol_eq_ok.2 ⟨hv, rfl⟩)

theorem exec_ckHrph (hfree : s.err = .noError) {c : Byte} (hband : inBand c = true) :
    exec (.ckHrph c) s = .next (s.setChk (stepChk s.chk (hrpHigh c))) :=
  runRule_of_ok hfree (.ckHrph c) (foldHrp_eq_ok.2 ⟨hband, rfl⟩)

theorem exec_ckHrpl (hfree : s.err = .noError) {c : Byte} (hband : inBand c = true) :
    exec (.ckHrpl c) s = .next (s.setChk (stepChk s.chk (hrpLow c))) :=
  runRule_of_ok hfree (.ckHrpl c) (foldHrp_eq_ok.2 ⟨hband, rfl⟩)

theorem exec_ckFin (hfree : s.err = .noError) :
    exec .ckFin s = .next (s.setCkres (stepSixZeros s.chk ^^^ finalConst)) :=
  runRule_of_ok hfree .ckFin (rule := finishChecksum) rfl

theorem exec_ckVer_pass (hfree : s.err = .noError) (hchk : s.chk = finalConst) :
    exec .ckVer s = .next (s.setCkok true) := by
  have hok : checksumOk s.chk = true := decide_eq_true hchk
  exact (unlessLocked_of_unlocked hfree _).trans (by simp [hok])

theorem exec_ckVer_fail (hfree : s.err = .noError) (hchk : s.chk ≠ finalConst) :
    exec .ckVer s = .next ((s.setCkok false).capture .checksum (encode .ckVer)) := by
  have hbad : checksumOk s.chk = false := decide_eq_false hchk
  exact (unlessLocked_of_unlocked hfree _).trans (by simp [hbad, raise])

end

/-- Settles O39: both rules always commit. -/
theorem checksumIsInitialisedAndFinished : Obligations.ChecksumIsInitialisedAndFinished :=
  ⟨⟨fun _ hfree => exec_ckInit hfree, fun _ hlock => exec_of_locked hlock nofun nofun,
      illegalWithOperand_of_noneForm rfl (decodeCommandWord_ck 0)⟩,
    fun _ hfree => exec_ckFin hfree, fun _ hlock => exec_of_locked hlock nofun nofun,
    illegalWithOperand_of_noneForm rfl (decodeCommandWord_ck 4)⟩

/-- Settles O40, by whether the accumulator holds the final constant. -/
theorem checksumIsVerified : Obligations.ChecksumIsVerified :=
  ⟨fun _ hfree => ⟨exec_ckVer_pass hfree, exec_ckVer_fail hfree⟩,
    fun _ hlock => exec_of_locked hlock nofun nofun,
    illegalWithOperand_of_noneForm rfl (decodeCommandWord_ck 5)⟩

/-- Settles O37: the one check of the rule is the symbol's range. -/
theorem symbolIsFolded : Obligations.SymbolIsFolded := by
  refine fun v s hfree => ⟨fun hv => ?_, fun hv => ?_, fun _ hlock => exec_of_locked hlock nofun nofun⟩
  · rw [BitVec.ofNat_toNat]
    exact exec_ckStep hfree hv
  · exact runRule_of_error hfree _ (bind_of_error (symOperand_eq_error.2 ⟨hv, rfl⟩) _)

/-! ## The parts of an HRP character -/

theorem hrpHigh_eq_div (c : Byte) : hrpHigh c = BitVec.ofNat 5 ((lower c).toNat / 32) := by
  refine BitVec.eq_of_toNat_eq ?_
  rw [hrpHigh, BitVec.toNat_setWidth, BitVec.toNat_ushiftRight, Nat.shiftRight_eq_div_pow, BitVec.toNat_ofNat]

theorem hrpLow_eq_mod (c : Byte) : hrpLow c = BitVec.ofNat 5 ((lower c).toNat % 32) := by
  refine BitVec.eq_of_toNat_eq ?_
  rw [hrpLow, BitVec.toNat_setWidth, BitVec.toNat_and, BitVec.toNat_ofNat]
  exact congrArg (· % 2 ^ 5) (Nat.and_two_pow_sub_one_eq_mod _ 5)

/-- Settles O38: the two commands run one rule, with two parts of the character. -/
theorem hrpCharacterIsFolded : Obligations.HrpCharacterIsFolded := by
  refine fun c s hfree => ⟨fun hlow hhigh => ?_, fun hout => ?_,
    fun _ hlock => exec_of_locked hlock nofun nofun, fun _ hlock => exec_of_locked hlock nofun nofun⟩
  · rw [← hrpHigh_eq_div, ← hrpLow_eq_mod]
    have hband : inBand c = true := inBand_eq_true.2 ⟨hlow, hhigh⟩
    exact ⟨exec_ckHrph hfree hband, exec_ckHrpl hfree hband⟩
  · have hrule (part : Byte → Symbol) : foldHrp part c s = .error .ascii :=
      bind_of_error (charOperand_of_outOfBand hout) _
    exact ⟨runRule_of_error hfree _ (hrule hrpHigh), runRule_of_error hfree _ (hrule hrpLow)⟩

/-! ## Programs of commands -/

theorem runAll_cons {i : Instr} {s t : State} (h : exec i s = .next t) (rest : List Instr) :
    runAll (i :: rest) s = runAll rest t := by
  rw [runAll, h]

theorem runAll_append (p q : List Instr) (s : State) : runAll (p ++ q) s = runAll q (runAll p s) := by
  induction p generalizing s with
  | nil => rfl
  | cons i p ih =>
    obtain ⟨t, ht⟩ := exec_goes_on i s
    rw [List.cons_append, runAll_cons ht, runAll_cons ht]
    exact ih t

/-- Commands that fold one symbol each fold all of them. -/
theorem runAll_folds {α : Type} {command : α → Instr} {symbol : α → Symbol} {xs : List α}
    (hfold : ∀ x ∈ xs, ∀ s : State, s.err = .noError →
      exec (command x) s = .next (s.setChk (stepChk s.chk (symbol x))))
    {s : State} (hfree : s.err = .noError) :
    runAll (xs.map command) s = s.setChk (stepAll s.chk (xs.map symbol)) := by
  induction xs generalizing s with
  | nil => rfl
  | cons x xs ih =>
    obtain ⟨hx, hxs⟩ := List.forall_mem_cons.1 hfold
    rw [List.map_cons, runAll_cons (hx s hfree)]
    exact ih hxs hfree

theorem runAll_ckData {s : State} (hfree : s.err = .noError) (ds : List Symbol) :
    runAll (Pseudo.expand (.ckData (ofSymbols ds))) s = s.setChk (stepAll s.chk ds) := by
  have hfold (v : Symbol) (t : State) (ht : t.err = .noError) :
      exec (.ckStep (v.setWidth 8)) t = .next (t.setChk (stepChk t.chk v)) := by
    have hwide : (v.setWidth 8).toNat = v.toNat := BitVec.toNat_setWidth_of_le (by decide)
    have hback : (v.setWidth 8).setWidth 5 = v := by
      rw [BitVec.setWidth_setWidth_of_le _ (by decide), BitVec.setWidth_eq]
    rw [exec_ckStep ht (by rw [hwide]; exact Nat.le_of_lt_succ v.isLt), hback]
  have hrun := runAll_folds (command := fun v : Symbol => .ckStep (v.setWidth 8)) (symbol := id)
    (xs := ds) (fun v _ => hfold v) hfree
  rw [List.map_id] at hrun
  rw [Pseudo.expand, ofSymbols, List.map_map]
  exact hrun

theorem runAll_ckHrp {s : State} (hfree : s.err = .noError) {h : Str} (hband : h.all inBand = true) :
    runAll (Pseudo.expand (.ckHrp h)) s = s.setChk (stepAll s.chk (hrpExpand h)) := by
  have hin (c : Byte) (hc : c ∈ h) : inBand c = true := List.all_eq_true.1 hband c hc
  have hhigh : runAll (h.map .ckHrph) s = s.setChk (stepAll s.chk (h.map hrpHigh)) :=
    runAll_folds (fun c hc _ ht => exec_ckHrph ht (hin c hc)) hfree
  have hzero (t : State) (ht : t.err = .noError) : exec (.ckStep 0) t = .next (t.setChk (stepChk t.chk 0)) :=
    exec_ckStep ht (v := 0) (by decide)
  have hlow (t : State) (ht : t.err = .noError) :
      runAll (h.map .ckHrpl) t = t.setChk (stepAll t.chk (h.map hrpLow)) :=
    runAll_folds (fun c hc _ hu => exec_ckHrpl hu (hin c hc)) ht
  rw [Pseudo.expand, runAll_append, runAll_append, hhigh, runAll_cons (hzero _ (by exact hfree)), runAll,
    hlow _ (by exact hfree), hrpExpand, stepAll_append, stepAll_append]
  rfl

/-- Creation on the block (R75, R81): `CKRES` holds the checksum, and `CHK` the string without it. -/
theorem runAll_create {s : State} (hfree : s.err = .noError) {h : Str} (hband : h.all inBand = true)
    (ds : List Symbol) :
    runAll (.ckInit :: Pseudo.expand (.ckHrp h) ++ Pseudo.expand (.ckData (ofSymbols ds)) ++ [.ckFin]) s =
      (s.setChk (polymod (hrpExpand h ++ ds))).setCkres (createChecksum h ds) := by
  rw [runAll_append, runAll_append, runAll_cons (exec_ckInit hfree), runAll_ckHrp (by exact hfree) hband,
    runAll_ckData (by exact hfree), runAll_cons (exec_ckFin (by exact hfree)), runAll, createChecksum, polymod,
    polymod, stepAll_append _ _ [0, 0, 0, 0, 0, 0], stepAll_append]
  rfl

/-- Verification on the block (R76, R82): the symbols of `CKRES` bring `CHK` to the final constant. -/
theorem runAll_verify {s : State} (hfree : s.err = .noError)
    (hres : s.ckres = stepAll s.chk [0, 0, 0, 0, 0, 0] ^^^ finalConst) :
    runAll (Pseudo.expand (.ckData (ofSymbols (checksumSymbols s.ckres))) ++ [.ckVer]) s =
      (s.setChk finalConst).setCkok true := by
  rw [runAll_append, runAll_ckData hfree, hres, stepAll_checksumSymbols_xor,
    runAll_cons (exec_ckVer_pass (by exact hfree) rfl), runAll]

/-- Settles O44: the block computes `create`, whose symbols verify by R83. -/
theorem createdChecksumVerifiesOnTheBlock : Obligations.CreatedChecksumVerifiesOnTheBlock := by
  intro s h ds hfree hband t u
  have ht : t = (s.setChk (polymod (hrpExpand h ++ ds))).setCkres (createChecksum h ds) :=
    runAll_create hfree hband ds
  have hterr : t.err = .noError := by rw [ht]; exact hfree
  have hres : t.ckres = stepAll t.chk [0, 0, 0, 0, 0, 0] ^^^ finalConst := by
    rw [ht, State.setCkres_ckres, State.setCkres_chk, State.setChk_chk, createChecksum, polymod, stepAll_append]
    rfl
  have hu : u = (t.setChk finalConst).setCkok true := runAll_verify hterr hres
  refine ⟨?_, hterr, ?_, ?_, ?_⟩
  · rw [ht, State.setCkres_ckres]
  · rw [hu]; rfl
  · rw [hu]; rfl
  · rw [hu]; exact hterr

end Sys2Proof.Machine
end

section
/-! PROOFS. Regrouping bits as arithmetic: the number a sequence of groups spells (`bitString`) and the groups a
number has (`bitGroups`) undo each other, and `convert_bits` (43_converter.md R86) cuts the one number its input
spells into groups. The laws R92 and R93 follow. -/

namespace Sys2Proof.Machine

/-! ## The number a sequence of groups spells -/

theorem bitString_concat (f : Nat) (xs : List Byte) (x : Byte) :
    bitString f (xs ++ [x]) = bitString f xs * 2 ^ f + x.toNat := by
  rw [bitString, List.foldl_append]
  rfl

theorem bitString_cons (f : Nat) (x : Byte) (xs : List Byte) :
    bitString f (x :: xs) = x.toNat * 2 ^ (f * xs.length) + bitString f xs := by
  induction xs using List.reverseRecOn with
  | nil => simp [bitString]
  | append_singleton ys y ih =>
    rw [← List.cons_append, bitString_concat, bitString_concat, ih, List.length_append, List.length_singleton,
      Nat.mul_succ, Nat.pow_add]
    ring

theorem bitString_lt {f : Nat} {xs : List Byte} (h : ∀ x ∈ xs, x.toNat < 2 ^ f) :
    bitString f xs < 2 ^ (f * xs.length) := by
  induction xs with
  | nil => exact Nat.one_pos
  | cons x xs ih =>
    obtain ⟨hx, hxs⟩ := List.forall_mem_cons.1 h
    rw [bitString_cons, List.length_cons, Nat.mul_succ, Nat.add_comm (f * xs.length), Nat.pow_add]
    calc x.toNat * 2 ^ (f * xs.length) + bitString f xs
        < x.toNat * 2 ^ (f * xs.length) + 2 ^ (f * xs.length) := Nat.add_lt_add_left (ih hxs) _
      _ = (x.toNat + 1) * 2 ^ (f * xs.length) := (Nat.succ_mul _ _).symm
      _ ≤ 2 ^ f * 2 ^ (f * xs.length) := Nat.mul_le_mul_right _ hx

/-! ## The groups a number has -/

/-- The lowest `n` groups of `t` bits of a number, most significant first. -/
def bitGroups (t : Nat) : (n : Nat) → (v : Nat) → List Byte
  | 0, _ => []
  | n + 1, v => bitGroups t n (v / 2 ^ t) ++ [BitVec.ofNat 8 (v % 2 ^ t)]

@[simp] theorem bitGroups_length (t n v : Nat) : (bitGroups t n v).length = n := by
  induction n generalizing v with
  | zero => rfl
  | succ n ih => rw [bitGroups, List.length_append, ih, List.length_singleton]

/-- A group of at most 8 bits is held whole by an entry of the queue. -/
theorem group_toNat {t : Nat} (ht : t ≤ 8) (v : Nat) : (BitVec.ofNat 8 (v % 2 ^ t)).toNat = v % 2 ^ t := by
  rw [BitVec.toNat_ofNat]
  exact Nat.mod_eq_of_lt <| (Nat.mod_lt _ (Nat.two_pow_pos t)).trans_le (Nat.pow_le_pow_right Nat.two_pos ht)

theorem bitGroups_lt {t : Nat} (ht : t ≤ 8) {n v : Nat} : ∀ x ∈ bitGroups t n v, x.toNat < 2 ^ t := by
  induction n generalizing v with
  | zero => exact fun _ hx => nomatch hx
  | succ n ih =>
    intro x hx
    obtain hx | hx := List.mem_append.1 hx
    · exact ih x hx
    · rw [List.mem_singleton.1 hx, group_toNat ht]
      exact Nat.mod_lt _ (Nat.two_pow_pos t)

/-- The upper groups and the lower groups. -/
theorem bitGroups_add (t m n v : Nat) :
    bitGroups t (m + n) v = bitGroups t m (v / 2 ^ (t * n)) ++ bitGroups t n v := by
  induction n generalizing v with
  | zero => simp [bitGroups]
  | succ n ih =>
    rw [← Nat.add_assoc, bitGroups, ih, Nat.div_div_eq_div_mul, ← Nat.pow_add, Nat.add_comm t,
      ← Nat.mul_add_one, List.append_assoc, bitGroups]

/-- The groups above the lowest `r` bits, each as a quotient of the whole number (43_converter.md R89). -/
theorem bitGroups_eq_map_range (t n r a : Nat) :
    bitGroups t n (a / 2 ^ r) =
      (List.range n).map fun k => BitVec.ofNat 8 (a / 2 ^ (t * n + r - (k + 1) * t) % 2 ^ t) := by
  induction n generalizing r with
  | zero => rfl
  | succ n ih =>
    have hlast : t * (n + 1) + r - (n + 1) * t = r := by rw [Nat.mul_comm, Nat.add_sub_cancel_left]
    have hexp : t * n + (r + t) = t * (n + 1) + r := by rw [Nat.mul_succ]; omega
    rw [bitGroups, Nat.div_div_eq_div_mul, ← Nat.pow_add, ih, hexp, List.range_succ, List.map_append,
      List.map_singleton, hlast]

theorem bitString_bitGroups {t : Nat} (ht : t ≤ 8) (n v : Nat) :
    bitString t (bitGroups t n v) = v % 2 ^ (t * n) := by
  induction n generalizing v with
  | zero => exact (Nat.mod_one v).symm
  | succ n ih =>
    rw [bitGroups, bitString_concat, ih, group_toNat ht, Nat.mul_succ, Nat.pow_add, Nat.mul_comm (2 ^ (t * n)),
      Nat.mod_mul, Nat.mul_comm, Nat.add_comm]

theorem bitGroups_bitString {f : Nat} {xs : List Byte} (h : ∀ x ∈ xs, x.toNat < 2 ^ f) :
    bitGroups f xs.length (bitString f xs) = xs := by
  induction xs using List.reverseRecOn with
  | nil => rfl
  | append_singleton ys y ih =>
    obtain ⟨hys, hy⟩ := List.forall_mem_append.1 h
    have hy : y.toNat < 2 ^ f := hy y (List.mem_singleton_self y)
    have hdiv : (bitString f ys * 2 ^ f + y.toNat) / 2 ^ f = bitString f ys := by
      rw [Nat.mul_comm, Nat.mul_add_div (Nat.two_pow_pos f), Nat.div_eq_of_lt hy, Nat.add_zero]
    rw [List.length_append, List.length_singleton, bitGroups, bitString_concat, hdiv, ih hys,
      Nat.mul_add_mod_of_lt hy, BitVec.ofNat_toNat, BitVec.setWidth_eq]

/-! ## Only the low bits are read -/

theorem div_two_pow_modEq {k n v w : Nat} (h : v ≡ w [MOD 2 ^ (k + n)]) : v / 2 ^ k ≡ w / 2 ^ k [MOD 2 ^ n] := by
  rw [Nat.ModEq, Nat.pow_add] at h
  rw [Nat.ModEq, ← Nat.mod_mul_right_div_self, h, Nat.mod_mul_right_div_self]

theorem modEq_of_two_pow_le {k n v w : Nat} (hk : k ≤ n) (h : v ≡ w [MOD 2 ^ n]) : v ≡ w [MOD 2 ^ k] :=
  h.of_dvd (Nat.pow_dvd_pow 2 hk)

theorem bitGroups_congr {t n v w : Nat} (h : v ≡ w [MOD 2 ^ (t * n)]) : bitGroups t n v = bitGroups t n w := by
  induction n generalizing v w with
  | zero => rfl
  | succ n ih =>
    rw [Nat.mul_succ, Nat.add_comm] at h
    have hlow : v % 2 ^ t = w % 2 ^ t := modEq_of_two_pow_le (Nat.le_add_right _ _) h
    rw [bitGroups, bitGroups, ih (div_two_pow_modEq h), hlow]

/-! ## The reference's emission loop -/

theorem takeGroups_fst {t : Nat} (ht : 0 < t) (acc : Nat) {fuel bits : Nat} (h : bits ≤ fuel) :
    (takeGroups acc t fuel bits).1 = bitGroups t (bits / t) (acc / 2 ^ (bits % t)) := by
  induction fuel generalizing bits with
  | zero => rw [Nat.le_zero.1 h, Nat.zero_div]; rfl
  | succ fuel ih =>
    rw [takeGroups]
    split
    next hle =>
      have hrest : (bits - t) % t + t * ((bits - t) / t) = bits - t := Nat.mod_add_div _ _
      have hfuel : bits - t ≤ fuel := by omega
      dsimp only
      rw [ih hfuel, Nat.div_eq_sub_div ht hle, Nat.add_comm, bitGroups_add, Nat.div_div_eq_div_mul,
        Nat.mod_eq_sub_mod hle, ← Nat.pow_add, hrest]
      rfl
    next hlt =>
      rw [Nat.div_eq_of_lt (Nat.lt_of_not_le hlt)]
      rfl

theorem takeGroups_eq {t : Nat} (ht : 0 < t) (acc bits : Nat) :
    takeGroups acc t bits bits = (bitGroups t (bits / t) (acc / 2 ^ (bits % t)), bits % t) :=
  Prod.ext (takeGroups_fst ht acc le_rfl) (takeGroups_bits ht acc bits bits le_rfl)

/-! ## The reference's completion, outcome by outcome (R86) -/

section

variable {f t acc bits : Nat}

theorem convertFinish_zero (hf : 0 < f) (pad : Bool) : convertFinish f t pad acc 0 = .ok [] := by
  cases pad with
  | true => rfl
  | false => simp [convertFinish, Nat.mod_one, Nat.ne_of_gt hf]

theorem convertFinish_padded (hbits : 0 < bits) :
    convertFinish f t true acc bits =
      if f ≤ t - bits then .error .padExcess else .ok [BitVec.ofNat 8 (acc * 2 ^ (t - bits) % 2 ^ t)] := by
  rw [convertFinish, if_pos rfl, if_neg (Nat.ne_of_gt hbits)]

theorem convertFinish_unpadded :
    convertFinish f t false acc bits =
      if f ≤ bits then .error .padExcess else if acc % 2 ^ bits ≠ 0 then .error .padNonzero else .ok [] := by
  rw [convertFinish, if_neg Bool.false_ne_true]

/-- The leftover bits above zeros: no bit of them is cut off. -/
theorem padded_group_eq (hbits : bits ≤ t) :
    acc * 2 ^ (t - bits) % 2 ^ t = acc % 2 ^ bits * 2 ^ (t - bits) := by
  rw [← Nat.mul_mod_mul_right, ← Nat.pow_add, Nat.add_sub_cancel' hbits]

end

/-! ## The reference's loop over the input -/

section

variable {f t : Nat} {pad : Bool} {x : Byte} {xs : List Byte} {acc bits : Nat}

theorem convertFrom_cons_of_le (hx : 2 ^ f ≤ x.toNat) :
    convertFrom f t pad (x :: xs) acc bits = .error .convData := by
  rw [convertFrom, if_pos hx]

/-- One input group: what it completes comes first, and the rest goes on from what it leaves. -/
theorem convertFrom_cons_of_lt (ht : 0 < t) (hx : x.toNat < 2 ^ f) :
    convertFrom f t pad (x :: xs) acc bits =
      (convertFrom f t pad xs (acc * 2 ^ f + x.toNat) ((bits + f) % t)).map
        (bitGroups t ((bits + f) / t) ((acc * 2 ^ f + x.toNat) / 2 ^ ((bits + f) % t)) ++ ·) := by
  rw [convertFrom, if_neg (Nat.not_le.2 hx)]
  dsimp only
  rw [takeGroups_eq ht]
  cases convertFrom f t pad xs (acc * 2 ^ f + x.toNat) ((bits + f) % t) <;> rfl

/-- The groups and the leftover of one more input group, counted together with those of the rest. -/
theorem groups_split (ht : 0 < t) (b m : Nat) :
    (b + m) / t = b / t + (b % t + m) / t ∧ (b + m) % t = (b % t + m) % t := by
  refine ⟨?_, (Nat.mod_add_mod b t m).symm⟩
  conv_lhs => rw [← Nat.mod_add_div b t, Nat.add_right_comm, Nat.add_mul_div_left _ _ ht, Nat.add_comm]

/-- On valid input `convert_bits` cuts one number of `n` bits, spelled by the buffer and the input, into `n / t`
groups and completes with the `n % t` bits left (43_converter.md R86). -/
theorem convertFrom_eq (ht : 0 < t) (hxs : ∀ x ∈ xs, x.toNat < 2 ^ f) (hbits : bits < t) {a n : Nat}
    (ha : a = acc * 2 ^ (f * xs.length) + bitString f xs) (hn : n = bits + f * xs.length) :
    convertFrom f t pad xs acc bits =
      (convertFinish f t pad a (n % t)).map (bitGroups t (n / t) (a / 2 ^ (n % t)) ++ ·) := by
  induction xs generalizing acc bits n with
  | nil =>
    have ha : a = acc := by simpa [bitString] using ha
    have hn : n = bits := hn
    rw [ha, hn, Nat.mod_eq_of_lt hbits, Nat.div_eq_of_lt hbits, convertFrom]
    cases convertFinish f t pad acc bits <;> rfl
  | cons x xs ih =>
    obtain ⟨hx, hxs⟩ := List.forall_mem_cons.1 hxs
    have hlen : n = bits + f + f * xs.length := by rw [hn, List.length_cons]; ring
    obtain ⟨hdiv, hmod⟩ := groups_split ht (bits + f) (f * xs.length)
    have hacc : a = (acc * 2 ^ f + x.toNat) * 2 ^ (f * xs.length) + bitString f xs := by
      rw [ha, bitString_cons, List.length_cons, Nat.mul_succ, Nat.pow_add]
      ring
    rw [convertFrom_cons_of_lt ht hx, ih hxs (Nat.mod_lt _ ht) hacc rfl, hlen, hdiv, hmod]
    generalize hr : (bits + f) % t + f * xs.length = r
    have hhigh : a / 2 ^ (r % t) / 2 ^ (t * (r / t)) = (acc * 2 ^ f + x.toNat) / 2 ^ ((bits + f) % t) := by
      rw [Nat.div_div_eq_div_mul, ← Nat.pow_add, Nat.mod_add_div, ← hr, Nat.add_comm, Nat.pow_add,
        ← Nat.div_div_eq_div_mul, hacc, Nat.mul_comm _ (2 ^ (f * xs.length)), Nat.mul_add_div (Nat.two_pow_pos _),
        Nat.div_eq_of_lt (bitString_lt hxs), Nat.add_zero]
    rw [bitGroups_add, hhigh]
    cases convertFinish f t pad a (r % t) with
    | error e => rfl
    | ok out => exact congrArg _ (List.append_assoc _ _ _).symm

theorem convertFinish_congr {a b : Nat} (hbits : bits ≤ t) (h : a ≡ b [MOD 2 ^ bits]) :
    convertFinish f t pad a bits = convertFinish f t pad b bits := by
  have hpow : 2 ^ bits * 2 ^ (t - bits) = 2 ^ t := by rw [← Nat.pow_add, Nat.add_sub_cancel' hbits]
  have hlow : a * 2 ^ (t - bits) % 2 ^ t = b * 2 ^ (t - bits) % 2 ^ t := by
    rw [← hpow, Nat.mul_mod_mul_right, Nat.mul_mod_mul_right, h]
  have hzero : a % 2 ^ bits = b % 2 ^ bits := h
  rw [convertFinish, convertFinish, hlow, hzero]

/-- "Only its low `bits` bits are ever read" (43_converter.md R86). -/
theorem convertFrom_congr (ht : 0 < t) {a b : Nat} (hbits : bits < t) (h : a ≡ b [MOD 2 ^ bits]) :
    convertFrom f t pad xs a bits = convertFrom f t pad xs b bits := by
  induction xs generalizing a b bits with
  | nil => exact convertFinish_congr hbits.le h
  | cons x xs ih =>
    by_cases hx : x.toNat < 2 ^ f
    · have hnext : a * 2 ^ f + x.toNat ≡ b * 2 ^ f + x.toNat [MOD 2 ^ (bits + f)] := by
        rw [Nat.pow_add]
        exact (h.mul_right' _).add_right _
      have hleft : a * 2 ^ f + x.toNat ≡ b * 2 ^ f + x.toNat [MOD 2 ^ ((bits + f) % t)] :=
        modEq_of_two_pow_le (Nat.mod_le _ _) hnext
      rw [← Nat.mod_add_div (bits + f) t] at hnext
      rw [convertFrom_cons_of_lt ht hx, convertFrom_cons_of_lt ht hx, ih (Nat.mod_lt _ ht) hleft,
        bitGroups_congr (div_two_pow_modEq hnext)]
    · rw [convertFrom_cons_of_le (Nat.not_lt.1 hx), convertFrom_cons_of_le (Nat.not_lt.1 hx)]

end

/-! ## From bytes to symbols and back (R92, R93) -/

/-- With padding the symbols are the groups of the bytes' bits followed by zeros. -/
theorem convertBits_bytes (bytes : List Byte) :
    convertBits bytes 8 5 true =
      .ok (bitGroups 5 ((8 * bytes.length + 4) / 5)
        (bitString 8 bytes * 2 ^ (5 * ((8 * bytes.length + 4) / 5) - 8 * bytes.length))) := by
  rw [convertBits, convertFrom_eq (by decide) (fun x _ => x.isLt) (by decide)
    (a := bitString 8 bytes) (by simp) (n := 8 * bytes.length) (by simp)]
  generalize 8 * bytes.length = n
  generalize bitString 8 bytes = a
  by_cases hr : n % 5 = 0
  · have hlen : (n + 4) / 5 = n / 5 := by omega
    have hpad : 5 * (n / 5) - n = 0 := by omega
    rw [hr, convertFinish_zero (by decide), hlen, hpad, Nat.pow_zero, Nat.div_one, Nat.mul_one]
    exact congrArg _ (List.append_nil _)
  · have hlen : (n + 4) / 5 = n / 5 + 1 := by omega
    have hpad : 5 * (n / 5 + 1) - n = 5 - n % 5 := by omega
    have hfive : 2 ^ 5 = 2 ^ (5 - n % 5) * 2 ^ (n % 5) := by rw [← Nat.pow_add]; congr 1; omega
    have hhigh : a * 2 ^ (5 - n % 5) / 2 ^ 5 = a / 2 ^ (n % 5) := by
      rw [hfive, ← Nat.div_div_eq_div_mul, Nat.mul_div_cancel _ (Nat.two_pow_pos _)]
    rw [convertFinish_padded (Nat.pos_of_ne_zero hr), if_neg (by omega), hlen, hpad, bitGroups, hhigh]
    rfl

/-- Settles O49: the symbols are the groups of one number, so the number they spell is that number. -/
theorem bytesToSymbolsNeverFails : Obligations.BytesToSymbolsNeverFails := by
  intro bytes
  refine ⟨_, convertBits_bytes bytes, bitGroups_length _ _ _, bitGroups_lt (by decide), ?_⟩
  rw [bitGroups_length, bitString_bitGroups (by decide)]
  generalize hlen : (8 * bytes.length + 4) / 5 = m
  have hsum : 5 * m = 8 * bytes.length + (5 * m - 8 * bytes.length) := by omega
  refine Nat.mod_eq_of_lt ?_
  conv_rhs => rw [hsum, Nat.pow_add]
  exact Nat.mul_lt_mul_of_pos_right (bitString_lt fun x _ => x.isLt) (Nat.two_pow_pos _)

/-- Without padding the bytes are the whole groups of the symbols' bits, if what is left is short and zero. -/
theorem convertBits_symbols {syms : List Byte} (h : ∀ x ∈ syms, x.toNat < 32) :
    convertBits syms 5 8 false =
      if 5 ≤ 5 * syms.length % 8 then .error .padExcess
      else if bitString 5 syms % 2 ^ (5 * syms.length % 8) ≠ 0 then .error .padNonzero
      else .ok (bitGroups 8 (5 * syms.length / 8) (bitString 5 syms / 2 ^ (5 * syms.length % 8))) := by
  rw [convertBits, convertFrom_eq (by decide) h (by decide) (a := bitString 5 syms) (by simp)
    (n := 5 * syms.length) (by simp), convertFinish_unpadded]
  split
  · rfl
  · split
    · rfl
    · exact congrArg _ (List.append_nil _)

theorem convertBits_symbols_eq_ok {syms out : List Byte} (h : ∀ x ∈ syms, x.toNat < 32) :
    convertBits syms 5 8 false = .ok out ↔
      (5 * syms.length % 8 < 5 ∧ bitString 5 syms % 2 ^ (5 * syms.length % 8) = 0) ∧
        out = bitGroups 8 (5 * syms.length / 8) (bitString 5 syms / 2 ^ (5 * syms.length % 8)) := by
  rw [convertBits_symbols h]
  split
  next hlong => simp [Nat.not_lt.2 hlong]
  next hshort =>
    split
    next hne => simp [hne]
    next hzero => simp [Nat.lt_of_not_le hshort, not_not.1 hzero, eq_comm]

/-- The padding of R92 is what R93 expects to be left, and the groups above it are the bytes. -/
theorem convertBits_symbols_of_bytes {bytes out : List Byte} (h : convertBits bytes 8 5 true = .ok out) :
    convertBits out 5 8 false = .ok bytes := by
  obtain ⟨out', hout, hlen, hsym, hbits⟩ := bytesToSymbolsNeverFails bytes
  obtain rfl : out' = out := Except.ok.inj (hout.symm.trans h)
  have hpad : 5 * out'.length - 8 * bytes.length = 5 * out'.length % 8 := by omega
  have hcount : 5 * out'.length / 8 = bytes.length := by omega
  rw [hpad] at hbits
  refine (convertBits_symbols_eq_ok hsym).2 ⟨⟨by omega, ?_⟩, ?_⟩
  · rw [hbits, Nat.mul_mod_left]
  · rw [hbits, Nat.mul_div_cancel _ (Nat.two_pow_pos _), hcount, bitGroups_bitString fun x _ => x.isLt]

/-- Settles O50: the success condition and the length by the closed form, the round trip by what R92 leaves. -/
theorem symbolsToBytesUndoesBytesToSymbols : Obligations.SymbolsToBytesUndoesBytesToSymbols := by
  refine ⟨fun syms h => ⟨⟨?_, fun hleft => ?_⟩, fun out hout => ?_⟩,
    fun bytes out => convertBits_symbols_of_bytes⟩
  · rintro ⟨out, hout⟩
    exact ((convertBits_symbols_eq_ok h).1 hout).1
  · exact ⟨_, (convertBits_symbols_eq_ok h).2 ⟨hleft, rfl⟩⟩
  · obtain ⟨-, rfl⟩ := (convertBits_symbols_eq_ok h).1 hout
    exact bitGroups_length _ _ _

end Sys2Proof.Machine
end

section
/-! PROOFS. The converter's commands (43_converter.md R88 to R90): their frame, what each does to an unlocked
block, and the block's buffer as the low 16 bits of the reference's. -/

namespace Sys2Proof.Machine

open Sys2Proof.Safety

/-! ## The frame of the converter's commands -/

/-- The four commands of 43_converter.md section 2. -/
abbrev IsConverterCommand (i : Instr) : Prop :=
  i = .cvFlush ∨ (∃ x, i = .cvPush x) ∨ ∃ f w, i = .cvCfg f w ∨ i = .cvCfgp f w

theorem CommandEffect.converter_frame {s t : State} {i : Instr} (heff : CommandEffect s i t)
    (hi : IsConverterCommand i) : SameChecksumUnit s t ∧ t.caseSeen = s.caseSeen := by
  cases heff with
  | discarded | raised | cvCfg | cvCfgp | cvPush | cvFlush => exact ⟨⟨rfl, rfl, rfl⟩, rfl⟩
  | _ => simp [IsConverterCommand] at hi

theorem CommandEffect.regroup_keeps_config {s t : State} {i : Instr} (heff : CommandEffect s i t)
    (hi : i = .cvFlush ∨ ∃ x, i = .cvPush x) : t.fromW = s.fromW ∧ t.toW = s.toW ∧ t.pad = s.pad := by
  cases heff with
  | discarded | raised | cvPush | cvFlush => exact ⟨rfl, rfl, rfl⟩
  | _ => simp at hi

theorem CommandEffect.configure_keeps_oq {s t : State} {i : Instr} (heff : CommandEffect s i t)
    (hi : ∃ f w, i = .cvCfg f w ∨ i = .cvCfgp f w) : t.oq = s.oq := by
  cases heff with
  | discarded | raised | cvCfg | cvCfgp => rfl
  | _ => simp at hi

/-- `SYS.RST` empties the queue and is not one of the converter's commands. -/
theorem IsConverterCommand.ne_sysRst {i : Instr} (hi : IsConverterCommand i) : i ≠ .sysRst := by
  rintro rfl
  simp [IsConverterCommand] at hi

/-- Settles O30, by cases on what a command of the converter can do. -/
theorem converterCommandsFrame : Obligations.ConverterCommandsFrame := by
  intro i s t hi hexec
  have heff : CommandEffect s i t := exec_effect hexec
  obtain ⟨hck, hcase⟩ := heff.converter_frame hi
  exact ⟨hck, hcase, heff.sameSurroundings, heff.appends_oq (IsConverterCommand.ne_sysRst hi),
    heff.regroup_keeps_config, heff.configure_keeps_oq⟩

/-! ## `CV.CFG` and `CV.CFGP` -/

theorem exec_cvCfg {s : State} (hfree : s.err = .noError) (f t : Nat) :
    exec (.cvCfg f t) s = .next ((s.setConfig f t false).setBuffer 0 0) :=
  runRule_of_ok hfree (.cvCfg f t) (rule := configure f t false) rfl

theorem exec_cvCfgp {s : State} (hfree : s.err = .noError) (f t : Nat) :
    exec (.cvCfgp f t) s = .next ((s.setConfig f t true).setBuffer 0 0) :=
  runRule_of_ok hfree (.cvCfgp f t) (rule := configure f t true) rfl

/-- A reserved bit in the operand of a `widths` command makes its value illegal (30_encoding.md R50). -/
theorem decode_illegal_of_widthsForm {op fn : BitVec 4} {make : Nat → Nat → Instr} {d : Byte}
    {w : Word} (hword : (commandWord op fn 0).setWidth 32 = w)
    (hform : decodeCommandWord (commandWord op fn d) = widthsForm make d)
    (hbit : d.getLsbD 3 = true ∨ d.getLsbD 7 = true) :
    ∃ why, decode (w ||| d.setWidth 32) = .illegal why := by
  rw [← hword, commandWord_zero_or, decode_setWidth, hform, widthsForm_illegal_iff, ← getLsbD_eq_true_iff_div_mod,
    ← getLsbD_eq_true_iff_div_mod]
  exact hbit

/-- Settles O45: the rule always commits, and the decoder refuses the reserved bits. -/
theorem converterIsConfigured : Obligations.ConverterIsConfigured := by
  refine fun f t _ _ => ⟨fun s hfree => ⟨exec_cvCfg hfree f t, exec_cvCfgp hfree f t⟩,
    fun _ hlock => exec_of_locked hlock nofun nofun, fun _ hlock => exec_of_locked hlock nofun nofun,
    fun s d hfree hbit w hw => ?_⟩
  have hillegal : ∃ why, decode w = .illegal why := by
    obtain rfl | rfl := hw
    · exact decode_illegal_of_widthsForm (by decide) (decodeCommandWord_cv 0 d) hbit
    · exact decode_illegal_of_widthsForm (by decide) (decodeCommandWord_cv 1 d) hbit
  obtain ⟨why, hdec⟩ := hillegal
  exact (issue_of_illegal hdec s).trans (if_pos hfree)

/-! ## The block's buffer -/

theorem and_mask_toNat (a : Buffer) {n : Nat} (hn : n ≤ 16) : (a &&& mask n).toNat = a.toNat % 2 ^ n := by
  have hpow : 2 ^ n ≤ 2 ^ 16 := Nat.pow_le_pow_right Nat.two_pos hn
  have hpos : 0 < 2 ^ n := Nat.two_pow_pos n
  rw [BitVec.toNat_and, mask, BitVec.toNat_ofNat, Nat.mod_eq_of_lt (by omega), Nat.and_two_pow_sub_one_eq_mod]

theorem setWidth_and_mask (a : Buffer) {n : Nat} (hn : n ≤ 16) :
    (a &&& mask n).setWidth 8 = BitVec.ofNat 8 (a.toNat % 2 ^ n) := by
  rw [← and_mask_toNat a hn, BitVec.ofNat_toNat]

/-- The block's emission loop is the reference's, on the buffer's value. -/
theorem emitGroups_eq_takeGroups (a : Buffer) {t : Nat} (ht : t ≤ 16) (fuel b : Nat) :
    emitGroups a t fuel b = takeGroups a.toNat t fuel b := by
  induction fuel generalizing b with
  | zero => rfl
  | succ fuel ih =>
    rw [emitGroups, takeGroups, ih, bufferGroup, setWidth_and_mask _ ht, BitVec.toNat_ushiftRight,
      Nat.shiftRight_eq_div_pow]

/-- The buffer keeps the low 16 bits of the reference's `acc` (43_converter.md R87). -/
theorem bufferAfter_toNat {f : Nat} {x : Byte} (hx : x.toNat < 2 ^ f) (acc : Buffer) :
    (bufferAfter acc f x).toNat = (acc.toNat * 2 ^ f + x.toNat) % 2 ^ 16 := by
  have hx16 : x.toNat < 2 ^ 16 := x.isLt.trans (by decide)
  rw [bufferAfter, BitVec.toNat_or, BitVec.toNat_shiftLeft, BitVec.toNat_setWidth, ← Nat.or_mod_two_pow,
    ← Nat.shiftLeft_add_eq_or_of_lt hx, Nat.shiftLeft_eq]

/-- What the block's flush pushes, or raises, is the reference's completion (43_converter.md R90). -/
theorem finalGroups_eq_convertFinish {s : State} (hs : Inv s) :
    finalGroups s = convertFinish s.fromW s.toW s.pad s.acc.toNat s.bits := by
  obtain ⟨-, -, ⟨-, hto8⟩, hbits8, -⟩ := hs
  have hto : s.toW ≤ 16 := by omega
  have hbits : s.bits ≤ 16 := by omega
  have hpadded : paddedGroup s.acc s.toW s.bits =
      BitVec.ofNat 8 (s.acc.toNat * 2 ^ (s.toW - s.bits) % 2 ^ s.toW) := by
    rw [paddedGroup, setWidth_and_mask _ hto, BitVec.toNat_shiftLeft, Nat.shiftLeft_eq,
      Nat.mod_mod_of_dvd _ (Nat.pow_dvd_pow 2 hto)]
  have hzero : s.acc &&& mask s.bits = 0 ↔ s.acc.toNat % 2 ^ s.bits = 0 := by
    rw [← and_mask_toNat _ hbits]
    exact BitVec.toNat_inj.symm
  rw [finalGroups, convertFinish, hpadded]
  split
  · by_cases hb : s.bits = 0
    · rw [if_neg (by omega), if_pos hb]
    · rw [if_pos (by omega), if_neg hb]
  · simp only [ne_eq, hzero]

/-! ## `CV.PUSH` -/

theorem shiftRight_eq_zero_iff {f : Nat} {x : Byte} : x >>> f = 0 ↔ x.toNat < 2 ^ f := by
  rw [← BitVec.toNat_inj, BitVec.toNat_ushiftRight, Nat.shiftRight_eq_div_pow]
  exact Nat.div_eq_zero_iff_lt (Nat.two_pow_pos f)

theorem exec_cvPush_of_range {x : Byte} {s : State} (hfree : s.err = .noError) (hx : 2 ^ s.fromW ≤ x.toNat) :
    exec (.cvPush x) s = .next (s.capture .convData (encode (.cvPush x))) :=
  runRule_of_error hfree (.cvPush x) <|
    bind_of_error (valueOperand_eq_error.2 ⟨mt shiftRight_eq_zero_iff.1 (Nat.not_lt.2 hx), rfl⟩) _

section

variable {x : Byte} {s : State} (hs : Inv s) (hx : x.toNat < 2 ^ s.fromW)

include hs

/-- `CV.PUSH` cuts the new buffer's value into `(BITS + FROM) / TO` groups and leaves the bits below them. -/
theorem pushed_eq : pushed x s =
    (bitGroups s.toW ((s.bits + s.fromW) / s.toW)
      ((bufferAfter s.acc s.fromW x).toNat / 2 ^ ((s.bits + s.fromW) % s.toW)),
      (s.bits + s.fromW) % s.toW) := by
  obtain ⟨-, -, ⟨hto, hto8⟩, -⟩ := hs
  rw [pushed, emitGroups_eq_takeGroups _ (by omega), takeGroups_eq hto]

theorem pushed_length : (pushed x s).1.length = (s.bits + s.fromW) / s.toW := by
  rw [pushed_eq hs, bitGroups_length]

include hx

theorem exec_cvPush (hfree : s.err = .noError)
    (hroom : s.oq.length + (s.bits + s.fromW) / s.toW ≤ s.oqDepth) :
    exec (.cvPush x) s =
      .next ((s.enqueue (pushed x s).1).setBuffer (bufferAfter s.acc s.fromW x) (pushed x s).2) := by
  rw [← pushed_length (x := x) hs] at hroom
  exact runRule_of_ok hfree (.cvPush x) (pushGroup_eq_ok.2 ⟨shiftRight_eq_zero_iff.2 hx, hroom, rfl⟩)

theorem exec_cvPush_of_full (hfree : s.err = .noError)
    (hfull : s.oqDepth < s.oq.length + (s.bits + s.fromW) / s.toW) :
    exec (.cvPush x) s = .next (s.capture .oqOverflow (encode (.cvPush x))) := by
  rw [← pushed_length (x := x) hs] at hfull
  exact runRule_of_error hfree (.cvPush x) <|
    (bind_of_ok (valueOperand_eq_ok.2 ⟨shiftRight_eq_zero_iff.2 hx, rfl⟩) _).trans <|
      (bind_of_error (State.push_eq_error.2 ⟨hfull, rfl⟩) _)

end

/-- Settles O46: the range first, then the capacity, and otherwise the groups of `pushed_eq`. -/
theorem inputGroupIsAccepted : Obligations.InputGroupIsAccepted := by
  refine fun x s hs hfree => ⟨fun hx => ?_, fun hx hfull => ?_, fun hx hroom => ?_,
    fun _ hlock => exec_of_locked hlock nofun nofun⟩
  · exact exec_cvPush_of_range hfree hx
  · exact exec_cvPush_of_full hs hx hfree hfull
  · rw [exec_cvPush hs hx hfree hroom, pushed_eq hs, bitGroups_eq_map_range, Nat.div_add_mod,
      ← bufferAfter_toNat hx, BitVec.ofNat_toNat, BitVec.setWidth_eq]
    rfl

/-! ## `CV.FLUSH` -/

section

variable {s : State} (hfree : s.err = .noError)

include hfree

theorem exec_cvFlush {outs : List Byte} (houts : finalGroups s = .ok outs)
    (hroom : s.oq.length + outs.length ≤ s.oqDepth) :
    exec .cvFlush s = .next ((s.enqueue outs).setBuffer 0 0) :=
  runRule_of_ok hfree .cvFlush (flushGroups_eq_ok.2 ⟨outs, houts, hroom, rfl⟩)

/-- A completion that pushes nothing needs no room. -/
theorem exec_cvFlush_nil (houts : finalGroups s = .ok []) (hqueue : s.oq.length ≤ s.oqDepth) :
    exec .cvFlush s = .next (s.setBuffer 0 0) := by
  rw [exec_cvFlush hfree houts hqueue, State.enqueue, List.append_nil]

theorem exec_cvFlush_error {e : ErrCode} (he : finalGroups s = .error e) :
    exec .cvFlush s = .next (s.capture e (encode .cvFlush)) :=
  runRule_of_error hfree .cvFlush (bind_of_error he _)

theorem exec_cvFlush_full {outs : List Byte} (houts : finalGroups s = .ok outs)
    (hfull : s.oqDepth < s.oq.length + outs.length) :
    exec .cvFlush s = .next (s.capture .oqOverflow (encode .cvFlush)) :=
  runRule_of_error hfree .cvFlush <|
    (bind_of_ok houts _).trans (bind_of_error (State.push_eq_error.2 ⟨hfull, rfl⟩) _)

end

/-- Settles O47: the block completes as the reference does, outcome by outcome. -/
theorem conversionIsCompleted : Obligations.ConversionIsCompleted := by
  refine ⟨fun s hs hfree => ?_, fun _ hlock => exec_of_locked hlock nofun nofun,
    illegalWithOperand_of_noneForm rfl (decodeCommandWord_cv 3)⟩
  have hfinal := finalGroups_eq_convertFinish hs
  obtain ⟨-, ⟨hfrom, -⟩, -, hbits, hqueue, -⟩ := hs
  refine ⟨fun hb => ?_, fun hb hpad => ?_, fun hb hpad => ?_⟩
  · rw [hb, convertFinish_zero hfrom] at hfinal
    exact exec_cvFlush_nil hfree hfinal hqueue
  · rw [hpad, convertFinish_padded hb] at hfinal
    refine ⟨fun hlong => ?_, fun hshort => ?_⟩
    · rw [if_pos hlong] at hfinal
      exact exec_cvFlush_error hfree hfinal
    · rw [if_neg (Nat.not_le.2 hshort), padded_group_eq hbits.le] at hfinal
      exact ⟨fun hfull => exec_cvFlush_full hfree hfinal hfull, fun hroom => exec_cvFlush hfree hfinal hroom⟩
  · rw [hpad, convertFinish_unpadded] at hfinal
    refine ⟨fun hlong => ?_, fun hshort => ⟨fun hne => ?_, fun hzero => ?_⟩⟩
    · rw [if_pos hlong] at hfinal
      exact exec_cvFlush_error hfree hfinal
    · rw [if_neg (Nat.not_le.2 hshort), if_pos hne] at hfinal
      exact exec_cvFlush_error hfree hfinal
    · rw [if_neg (Nat.not_le.2 hshort), if_neg (not_not.2 hzero)] at hfinal
      exact exec_cvFlush_nil hfree hfinal hqueue

end Sys2Proof.Machine
end

section
/-! PROOFS. Configure, push every value, flush: the block computes `convert_bits` (43_converter.md R91). Between two
commands the block's buffer stands for the reference's, which reads no bits above `BITS` (`convertFrom_congr`). -/

namespace Sys2Proof.Machine

open Sys2Proof.Safety

/-! ## Commands under the lock -/

theorem runAll_of_locked {p : List Instr} (hp : ∀ i ∈ p, i ≠ .sysRst ∧ i ≠ .sysClrerr) {s : State}
    (hlock : s.err ≠ .noError) : runAll p s = s := by
  induction p with
  | nil => rfl
  | cons i p ih =>
    obtain ⟨⟨hrst, hclr⟩, hrest⟩ := List.forall_mem_cons.1 hp
    rw [runAll_cons (exec_of_locked hlock hrst hclr), ih hrest]

/-- The commands that follow the configuration (R91). -/
def pushesAndFlush (data : List Byte) : List Instr := data.map .cvPush ++ [.cvFlush]

theorem pushesAndFlush_cons (x : Byte) (xs : List Byte) :
    pushesAndFlush (x :: xs) = .cvPush x :: pushesAndFlush xs := rfl

theorem runAll_pushesAndFlush_of_locked (data : List Byte) {s : State} (hlock : s.err ≠ .noError) :
    runAll (pushesAndFlush data) s = s := by
  refine runAll_of_locked (fun i hi => ?_) hlock
  obtain hi | hi := List.mem_append.1 hi
  · obtain ⟨x, -, rfl⟩ := List.mem_map.1 hi
    exact ⟨nofun, nofun⟩
  · rw [List.mem_singleton.1 hi]
    exact ⟨nofun, nofun⟩

/-! ## What it means to compute a result -/

/-- Between `s` and `u` the block computed `r`: with room for a success's outputs they are pushed and nothing is
raised; with room for the `n` groups a failing conversion may complete before it fails, its error is raised. -/
def Computes (s u : State) (n : Nat) : Except ErrCode (List Byte) → Prop
  | .ok out => s.oq.length + out.length ≤ s.oqDepth → u.oq = s.oq ++ out ∧ u.err = .noError
  | .error e => s.oq.length + n ≤ s.oqDepth → u.err = e

/-- Groups that are pushed first take their part of the room, so only a run in which they fit is asked about. -/
theorem Computes.of_enqueue {s u : State} {outs : List Byte} {n : Nat} {r : Except ErrCode (List Byte)}
    (h : s.oq.length + outs.length ≤ s.oqDepth → Computes (s.enqueue outs) u n r) :
    Computes s u (outs.length + n) (r.map (outs ++ ·)) := by
  cases r with
  | error e =>
    intro (hroom : s.oq.length + (outs.length + n) ≤ s.oqDepth)
    have hrest : (s.enqueue outs).oq.length + n ≤ s.oqDepth := by
      rw [State.enqueue_oq, List.length_append]
      omega
    exact h (by omega) hrest
  | ok out =>
    intro (hroom : s.oq.length + (outs ++ out).length ≤ s.oqDepth)
    rw [List.length_append] at hroom
    have hrest : (s.enqueue outs).oq.length + out.length ≤ s.oqDepth := by
      rw [State.enqueue_oq, List.length_append]
      omega
    obtain ⟨hoq, herr⟩ := h (by omega) hrest
    exact ⟨hoq.trans (List.append_assoc _ _ _), herr⟩

/-! ## The run -/

theorem computes_flush {s : State} (hs : Inv s) (hfree : s.err = .noError) (n : Nat) :
    Computes s (runAll (pushesAndFlush []) s) n (convertFinish s.fromW s.toW s.pad s.acc.toNat s.bits) := by
  rw [← finalGroups_eq_convertFinish hs, pushesAndFlush, List.map_nil, List.nil_append]
  cases houts : finalGroups s with
  | ok outs =>
    intro hroom
    rw [runAll_cons (exec_cvFlush hfree houts hroom), runAll]
    exact ⟨rfl, hfree⟩
  | error e =>
    intro _
    rw [runAll_cons (exec_cvFlush_error hfree houts), runAll]
    rfl

/-- The buffer after a push agrees with the reference's unbounded one on the bits left in it (R87). -/
theorem bufferAfter_modEq {f k : Nat} {x : Byte} (hx : x.toNat < 2 ^ f) (hk : k ≤ 16) (acc : Buffer) :
    (bufferAfter acc f x).toNat ≡ acc.toNat * 2 ^ f + x.toNat [MOD 2 ^ k] := by
  rw [bufferAfter_toNat hx]
  exact modEq_of_two_pow_le hk (Nat.mod_modEq _ _)

/-- The reference from the block's state, one input group on. -/
theorem convertFrom_cons_eq_pushed {s : State} (hs : Inv s) {x : Byte} (hx : x.toNat < 2 ^ s.fromW)
    (xs : List Byte) :
    convertFrom s.fromW s.toW s.pad (x :: xs) s.acc.toNat s.bits =
      (convertFrom s.fromW s.toW s.pad xs (bufferAfter s.acc s.fromW x).toNat (pushed x s).2).map
        ((pushed x s).1 ++ ·) := by
  have hpushed := pushed_eq (x := x) hs
  obtain ⟨-, ⟨-, hfrom⟩, ⟨hto, hto8⟩, hbits, -⟩ := hs
  have hleft : (s.bits + s.fromW) % s.toW < s.toW := Nat.mod_lt _ hto
  have hread := bufferAfter_modEq (k := s.bits + s.fromW) hx (by omega) s.acc
  rw [← Nat.mod_add_div (s.bits + s.fromW) s.toW] at hread
  rw [hpushed, convertFrom_cons_of_lt hto hx, bitGroups_congr (div_two_pow_modEq hread),
    convertFrom_congr hto hleft (bufferAfter_modEq hx (by omega) s.acc)]

/-- From every unlocked state the block's commands compute what the reference computes from its buffer. -/
theorem computes_pushesAndFlush {s : State} (hs : Inv s) (hfree : s.err = .noError) (data : List Byte) :
    Computes s (runAll (pushesAndFlush data) s) ((s.bits + s.fromW * data.length) / s.toW)
      (convertFrom s.fromW s.toW s.pad data s.acc.toNat s.bits) := by
  induction data generalizing s with
  | nil => exact computes_flush hs hfree _
  | cons x xs ih =>
    have ⟨_, _, ⟨hto, _⟩, _⟩ := hs
    by_cases hx : x.toNat < 2 ^ s.fromW
    · have hcount : (s.bits + s.fromW * (x :: xs).length) / s.toW =
          (pushed x s).1.length + ((pushed x s).2 + s.fromW * xs.length) / s.toW := by
        have hlen : s.bits + s.fromW * (x :: xs).length = s.bits + s.fromW + s.fromW * xs.length := by
          rw [List.length_cons]
          ring
        rw [hlen, (groups_split hto _ _).1, pushed_eq hs, bitGroups_length]
      rw [hcount, convertFrom_cons_eq_pushed hs hx, pushesAndFlush_cons]
      refine .of_enqueue fun hroom => ?_
      have hinv : Inv ((s.enqueue (pushed x s).1).setBuffer (bufferAfter s.acc s.fromW x) (pushed x s).2) :=
        inv_setBuffer (inv_enqueue hs hroom) _ (pushed_bits_lt hto x)
      rw [pushed_length hs] at hroom
      rw [runAll_cons (exec_cvPush hs hx hfree hroom)]
      exact ih hinv hfree
    · have hbig : 2 ^ s.fromW ≤ x.toNat := Nat.not_lt.1 hx
      rw [convertFrom_cons_of_le hbig, pushesAndFlush_cons,
        runAll_cons (exec_cvPush_of_range hfree hbig),
        runAll_pushesAndFlush_of_locked xs (by exact nofun)]
      exact fun _ => rfl

theorem exec_configuration {s : State} (hfree : s.err = .noError) (f t : Nat) (pad : Bool) :
    exec (if pad then .cvCfgp f t else .cvCfg f t) s = .next ((s.setConfig f t pad).setBuffer 0 0) := by
  cases pad with
  | true => exact exec_cvCfgp hfree f t
  | false => exact exec_cvCfg hfree f t

/-- Settles O48: the configured block starts with the reference's empty buffer. -/
theorem blockConversionIsConvertBits : Obligations.BlockConversionIsConvertBits := by
  intro s f t pad data hs hfree hf ht configuration u
  have hrun : u = runAll (pushesAndFlush data) ((s.setConfig f t pad).setBuffer 0 0) :=
    runAll_cons (exec_configuration hfree f t pad) _
  have hcomputes : Computes s u ((0 + f * data.length) / t) (convertBits data f t pad) :=
    hrun ▸ computes_pushesAndFlush (inv_configure hs hf ht pad) hfree data
  rw [Nat.zero_add] at hcomputes
  refine ⟨fun out hout => ?_, fun e he => ?_⟩
  · rw [hout] at hcomputes
    exact hcomputes
  · rw [he] at hcomputes
    exact hcomputes

end Sys2Proof.Machine
end

section
/-! PROOFS. The strings of the host codec (44_host_codec.md R96 to R98, R100): the case of a character and of a
string, the left-to-right scan, and the place of the separator. -/

namespace Sys2Proof.Machine

/-! ## A character and its other case -/

theorem lower_lower (c : Byte) : lower (lower c) = lower c := by
  revert c
  decide +kernel

theorem lower_upper (c : Byte) : lower (upper c) = lower c := by
  revert c
  decide +kernel

theorem inBand_lower (c : Byte) : inBand (lower c) = inBand c := by
  revert c
  decide +kernel

theorem inBand_upper (c : Byte) : inBand (upper c) = inBand c := by
  revert c
  decide +kernel

theorem isUpperLetter_lower (c : Byte) : isUpperLetter (lower c) = false := by
  revert c
  decide +kernel

theorem isLowerLetter_upper (c : Byte) : isLowerLetter (upper c) = false := by
  revert c
  decide +kernel

/-- Of an HRP character the checksum sees the lowercase form, and all of it (42_checksum.md R74). -/
theorem hrpParts_eq_iff {c d : Byte} : hrpHigh c = hrpHigh d ∧ hrpLow c = hrpLow d ↔ lower c = lower d := by
  constructor
  · intro ⟨hhigh, hlow⟩
    rw [hrpHigh_eq_div, hrpHigh_eq_div, ← BitVec.toNat_inj, BitVec.toNat_ofNat, BitVec.toNat_ofNat] at hhigh
    rw [hrpLow_eq_mod, hrpLow_eq_mod, ← BitVec.toNat_inj, BitVec.toNat_ofNat, BitVec.toNat_ofNat] at hlow
    exact BitVec.eq_of_toNat_eq (by omega)
  · intro h
    simp only [hrpHigh, hrpLow, h, and_self]

theorem hrpExpand_map {f : Byte → Byte} (hf : ∀ c, lower (f c) = lower c) (h : Str) :
    hrpExpand (h.map f) = hrpExpand h := by
  have hhigh : hrpHigh ∘ f = hrpHigh := funext fun c => (hrpParts_eq_iff.2 (hf c)).1
  have hlow : hrpLow ∘ f = hrpLow := funext fun c => (hrpParts_eq_iff.2 (hf c)).2
  rw [hrpExpand, List.map_map, List.map_map, hhigh, hlow, hrpExpand]

/-! ## The case of a string -/

/-- The string has letters of both cases. -/
def mixed (s : Str) : Bool := s.any isUpperLetter && s.any isLowerLetter

/-- What `CASE` shows after the characters of a string (41_charset.md R65), when it mixes no cases. -/
def caseOf (s : Str) : CaseSeen :=
  if s.any isUpperLetter then .upper else if s.any isLowerLetter then .lower else .none

theorem mixed_eq_false {s : Str} : mixed s = false ↔ s.any isUpperLetter = false ∨ s.any isLowerLetter = false :=
  Bool.and_eq_false_iff

/-- No character is a letter of both cases. -/
theorem letter_cases (c : Byte) :
    (caseClass c = .upper ∧ isUpperLetter c = true ∧ isLowerLetter c = false) ∨
    (caseClass c = .lower ∧ isUpperLetter c = false ∧ isLowerLetter c = true) ∨
    (caseClass c = .none ∧ isUpperLetter c = false ∧ isLowerLetter c = false) := by
  revert c
  decide +kernel

/-- The characters that differ in case from a letter are the letters of the other case. -/
theorem caseDiffers_eq (c d : Byte) :
    caseDiffers c d = (isUpperLetter c && isLowerLetter d || isLowerLetter c && isUpperLetter d) := by
  obtain ⟨hc, hcu, hcl⟩ | ⟨hc, hcu, hcl⟩ | ⟨hc, hcu, hcl⟩ := letter_cases c <;>
    obtain ⟨hd, hdu, hdl⟩ | ⟨hd, hdu, hdl⟩ | ⟨hd, hdu, hdl⟩ := letter_cases d <;>
    simp [caseDiffers, isLetter, hc, hcu, hcl, hd, hdu, hdl]

theorem any_caseDiffers (s : Str) (c : Byte) :
    s.any (caseDiffers c) =
      (isUpperLetter c && s.any isLowerLetter || isLowerLetter c && s.any isUpperLetter) := by
  rw [funext (caseDiffers_eq c)]
  obtain ⟨-, hu, hl⟩ | ⟨-, hu, hl⟩ | ⟨-, hu, hl⟩ := letter_cases c <;> simp [hu, hl]

theorem mixed_append_of_left {s : Str} (h : mixed s = true) (t : Str) : mixed (s ++ t) = true := by
  obtain ⟨hu, hl⟩ := Bool.and_eq_true_iff.1 h
  simp [mixed, hu, hl]

/-- One more character mixes cases where it differs from a letter before it. -/
theorem mixed_concat {s : Str} (h : mixed s = false) (c : Byte) : mixed (s ++ [c]) = s.any (caseDiffers c) := by
  have hu : (s ++ [c]).any isUpperLetter = (s.any isUpperLetter || isUpperLetter c) := by simp
  have hl : (s ++ [c]).any isLowerLetter = (s.any isLowerLetter || isLowerLetter c) := by simp
  rw [any_caseDiffers, mixed, hu, hl]
  rcases mixed_eq_false.1 h with hs | hs <;>
    obtain ⟨-, hcu, hcl⟩ | ⟨-, hcu, hcl⟩ | ⟨-, hcu, hcl⟩ := letter_cases c <;> simp [hs, hcu, hcl]

/-- The block's tracker refuses exactly the letters that differ from one before (41_charset.md R65). -/
theorem trackCase_caseOf {s : Str} (h : mixed s = false) (c : Byte) :
    trackCase (caseOf s) c = if s.any (caseDiffers c) then .error .mixedCase else .ok (caseOf (s ++ [c])) := by
  have hu : (s ++ [c]).any isUpperLetter = (s.any isUpperLetter || isUpperLetter c) := by simp
  have hl : (s ++ [c]).any isLowerLetter = (s.any isLowerLetter || isLowerLetter c) := by simp
  rw [any_caseDiffers, caseOf, caseOf, hu, hl]
  rw [mixed_eq_false] at h
  generalize s.any isUpperLetter = u at h ⊢
  generalize s.any isLowerLetter = l at h ⊢
  obtain ⟨hc, hcu, hcl⟩ | ⟨hc, hcu, hcl⟩ | ⟨hc, hcu, hcl⟩ := letter_cases c <;>
    rcases h with rfl | rfl <;> simp only [trackCase, hc, hcu, hcl] <;> grind

/-- Where no cases are mixed, the string's own characters leave the tracker as it is. -/
theorem trackCase_of_mem {s : Str} (h : mixed s = false) {c : Byte} (hc : c ∈ s) :
    trackCase (caseOf s) c = .ok (caseOf s) := by
  have hupper : isUpperLetter c = true → s.any isUpperLetter = true := fun hu => List.any_eq_true.2 ⟨c, hc, hu⟩
  have hlower : isLowerLetter c = true → s.any isLowerLetter = true := fun hl => List.any_eq_true.2 ⟨c, hc, hl⟩
  refine trackCase_eq_ok.2 ?_
  obtain ⟨hk, hu, hl⟩ | ⟨hk, hu, hl⟩ | ⟨hk, -, -⟩ := letter_cases c
  · simp [caseOf, hupper hu, hk]
  · have hno : s.any isUpperLetter = false := (mixed_eq_false.1 h).resolve_right (by simp [hlower hl])
    simp [caseOf, hno, hlower hl, hk]
  · simp [hk]

/-! ## The scan -/

/-- One character of the scan: the band, then the case. -/
theorem scan_cons (p : Procedure) (seen : Str) (c : Byte) (rest : Str) :
    scan p seen (c :: rest) =
      if inBand c = true then
        if seen.any (caseDiffers c) then .error (hostError p .mixedCase) else scan p (seen ++ [c]) rest
      else .error (hostError p .ascii) := by
  rw [scan]
  cases inBand c <;> rfl

/-- The scan accepts a string of the band that mixes no cases. -/
theorem scan_append_eq_ok {p : Procedure} {seen s : Str} (hseen : mixed seen = false) :
    scan p seen s = .ok () ↔ s.all inBand = true ∧ mixed (seen ++ s) = false := by
  induction s generalizing seen with
  | nil => simp [scan, hseen]
  | cons c rest ih =>
    have hsplit : seen ++ c :: rest = seen ++ [c] ++ rest := by simp
    rw [scan_cons, hsplit, ← mixed_concat hseen c]
    cases hband : inBand c with
    | false => simp [hband]
    | true =>
      cases hmix : mixed (seen ++ [c]) with
      | true =>
        have hno := mixed_append_of_left hmix rest
        simp only [hno, if_true, reduceCtorEq, Bool.true_eq_false, and_false]
      | false => simpa [hband] using ih hmix

theorem scan_eq_ok {p : Procedure} {s : Str} :
    scan p [] s = .ok () ↔ s.all inBand = true ∧ mixed s = false :=
  scan_append_eq_ok rfl

/-! ## The separator -/

theorem lastIndexOf_of_not_mem {c : Byte} {s : Str} (h : c ∉ s) : lastIndexOf c s = none := by
  induction s with
  | nil => rfl
  | cons x rest ih =>
    obtain ⟨hne, hrest⟩ := List.ne_and_not_mem_of_not_mem_cons h
    rw [lastIndexOf, ih hrest]
    exact if_neg hne.symm

/-- The last separator is the one that no separator follows. -/
theorem lastIndexOf_append {c : Byte} (h : Str) {body : Str} (hbody : c ∉ body) :
    lastIndexOf c (h ++ c :: body) = some h.length := by
  induction h with
  | nil => simp [lastIndexOf, lastIndexOf_of_not_mem hbody]
  | cons x h ih => simp [lastIndexOf, ih]

theorem lastIndexOf_eq_some {c : Byte} {s : Str} {p : Nat} (h : lastIndexOf c s = some p) :
    s = s.take p ++ c :: s.drop (p + 1) := by
  induction s generalizing p with
  | nil => exact nomatch h
  | cons x rest ih =>
    rw [lastIndexOf] at h
    cases hrest : lastIndexOf c rest with
    | some q =>
      rw [hrest] at h
      obtain rfl := Option.some.inj h
      exact congrArg (x :: ·) (ih hrest)
    | none =>
      rw [hrest] at h
      obtain ⟨rfl, hp⟩ := Option.ite_none_right_eq_some.1 h
      obtain rfl := Option.some.inj hp
      rfl

/-- A string splits at its last separator in one way. -/
theorem split_unique {c : Byte} {h h' body body' : Str} (hbody : c ∉ body) (hbody' : c ∉ body')
    (heq : h ++ c :: body = h' ++ c :: body') : h = h' ∧ body = body' := by
  have hplace : some h.length = some h'.length := by
    rw [← lastIndexOf_append h hbody, heq, lastIndexOf_append h' hbody']
  obtain ⟨hh, hrest⟩ := List.append_inj heq (Option.some.inj hplace)
  exact ⟨hh, (List.cons.inj hrest).2⟩

/-! ## Characters and symbols -/

theorem symOf_separator : symOf separator = none := by decide

/-- Characters spell symbols, in either case, when each is the character of its symbol. -/
theorem map_lower_cons_eq {c : Byte} {rest : Str} {vs : List Symbol} :
    (c :: rest).map lower = vs.map charOf ↔
      ∃ v ws, vs = v :: ws ∧ symOf c = some v ∧ rest.map lower = ws.map charOf := by
  cases vs with
  | nil => simp
  | cons v ws =>
    rw [List.map_cons, List.map_cons, List.cons.injEq, ← symOf_eq_some]
    simp

theorem symbolsOf_eq_ok {s : Str} {vs : List Symbol} : symbolsOf s = .ok vs ↔ s.map lower = vs.map charOf := by
  induction s generalizing vs with
  | nil => cases vs <;> simp [symbolsOf]
  | cons c rest ih =>
    rw [map_lower_cons_eq, symbolsOf]
    cases hc : symOf c with
    | none => simp
    | some v =>
      simp only [← ih]
      cases symbolsOf rest <;> simp [eq_comm]

theorem mapM_symOf_eq_some {s : Str} {vs : List Symbol} :
    s.mapM symOf = some vs ↔ s.map lower = vs.map charOf := by
  induction s generalizing vs with
  | nil => cases vs <;> simp
  | cons c rest ih =>
    rw [map_lower_cons_eq, List.mapM_cons]
    cases hc : symOf c with
    | none => simp
    | some v =>
      simp only [← ih]
      cases rest.mapM symOf <;> simp [eq_comm]

theorem separator_not_mem {body : Str} {syms : List Symbol} (h : body.map lower = syms.map charOf) :
    separator ∉ body := by
  intro hmem
  have hchar : lower separator ∈ syms.map charOf := h ▸ List.mem_map_of_mem hmem
  obtain ⟨v, -, hv⟩ := List.mem_map.1 hchar
  exact nomatch symOf_separator.symm.trans (symOf_eq_some.2 hv.symm)

end Sys2Proof.Machine
end

section
/-! PROOFS. What makes a string an address, said once (44_host_codec.md R96 to R98, R100): `decode` accepts exactly
the addresses and `encode` builds one. The properties of R102 follow. -/

namespace Sys2Proof.Machine

/-! ## A host function as its checks in order -/

/-- One check of a host function (44_host_codec.md R98, R100). -/
def check (ok : Bool) (e : HostError) : Except HostError Unit := if ok then .ok () else .error e

theorem check_eq_ok {ok : Bool} {e : HostError} : check ok e = .ok () ↔ ok = true := by
  cases ok <;> simp [check]

theorem check_not_bind {α : Type} (bad : Bool) (e : HostError) (f : Unit → Except HostError α) :
    (check (!bad) e >>= f) = if bad then .error e else f () := by
  cases bad <;> rfl

theorem check_le_bind {α : Type} (m n : Nat) (e : HostError) (f : Unit → Except HostError α) :
    (check (decide (m ≤ n)) e >>= f) = if n < m then .error e else f () := by
  simpa [← decide_not] using check_not_bind (decide (n < m)) e f

/-- A sequence succeeds when both of its parts do. -/
theorem check_then_eq_ok {α : Type} {x : Except HostError Unit} {f : Unit → Except HostError α} {b : α} :
    (x >>= f) = .ok b ↔ x = .ok () ∧ f () = .ok b := by
  cases x <;> simp [bind, Except.bind]

/-- R98, check by check. -/
theorem encodeString_eq_checks (hrp : Str) (data : List Byte) :
    encodeString hrp data =
      check (decide (hrp ≠ [])) .hrpEmpty >>= fun _ =>
      scan .encode [] hrp >>= fun _ =>
      check (decide (addressLength hrp data ≤ Config.addressMax)) .lengthTooLong >>= fun _ =>
      check (!data.any fun v => decide (31 < v.toNat)) .symbolRange >>= fun _ =>
      .ok (hrp ++ [separator] ++ addressBody hrp (toSymbols data)) := by
  simp only [encodeString, ne_eq, decide_not, check_le_bind, check_not_bind, decide_eq_true_eq]
  cases scan .encode [] hrp <;> rfl

/-- The part of R100 after the scan: the split at the last separator. -/
def decodeSplit (s : Str) : Except HostError (Str × List Byte) :=
  match lastIndexOf separator s with
  | none => .error .missingSeparator
  | some p =>
    if p = 0 ∨ s.length - p - 1 < Config.checksumLen then .error .separatorPosition
    else decodeParts (s.take p) (s.drop (p + 1))

/-- R100, check by check. -/
theorem decodeString_eq_checks (s : Str) :
    decodeString s =
      check (decide (Config.addressMin ≤ s.length)) .lengthTooShort >>= fun _ =>
      check (decide (s.length ≤ Config.addressMax)) .lengthTooLong >>= fun _ =>
      scan .decode [] s >>= fun _ => decodeSplit s := by
  simp only [decodeString, check_le_bind]
  cases scan .decode [] s <;> rfl

/-! ## Addresses -/

/-- The string `s` is the HRP, the separator and characters that spell `syms`, data and checksum
(44_host_codec.md R96, R97, R100). -/
structure IsAddress (s hrp body : Str) (syms : List Symbol) : Prop where
  split : s = hrp ++ separator :: body
  hrp_ne : hrp ≠ []
  short : s.length ≤ Config.addressMax
  band : s.all inBand = true
  oneCase : mixed s = false
  spells : body.map lower = syms.map charOf
  room : Config.checksumLen ≤ syms.length
  checks : polymod (hrpExpand hrp ++ syms) = finalConst

/-- The data bytes before the checksum of an address's symbols. -/
def dataOf (syms : List Symbol) : List Byte := ofSymbols (syms.take (syms.length - Config.checksumLen))

namespace IsAddress

variable {s hrp body : Str} {syms : List Symbol}

theorem body_length (h : IsAddress s hrp body syms) : body.length = syms.length := by
  simpa using congrArg List.length h.spells

theorem length_eq (h : IsAddress s hrp body syms) : s.length = hrp.length + 1 + syms.length := by
  rw [h.split, List.length_append, List.length_cons, h.body_length]
  omega

theorem addressMin_le (h : IsAddress s hrp body syms) : Config.addressMin ≤ s.length := by
  have hhrp : 0 < hrp.length := List.length_pos_of_ne_nil h.hrp_ne
  have hroom : 6 ≤ syms.length := h.room
  rw [h.length_eq, Config.addressMin]
  omega

/-- Applying one case to every character keeps an address, its symbols and their checksum. -/
theorem map_case (h : IsAddress s hrp body syms) {f : Byte → Byte} (hlower : ∀ c, lower (f c) = lower c)
    (hband : ∀ c, inBand (f c) = inBand c) (hsep : f separator = separator) (hcase : mixed (s.map f) = false) :
    IsAddress (s.map f) (hrp.map f) (body.map f) syms where
  split := by rw [h.split, List.map_append, List.map_cons, hsep]
  hrp_ne := by simpa using h.hrp_ne
  short := by simpa using h.short
  band := by simpa [hband] using h.band
  oneCase := hcase
  spells := by simpa [Function.comp_def, hlower] using h.spells
  room := h.room
  checks := by rw [hrpExpand_map hlower]; exact h.checks

end IsAddress

/-! ## Decoding -/

theorem decodeParts_eq_ok {hrp rest hrp' : Str} {data : List Byte} :
    decodeParts hrp rest = .ok (hrp', data) ↔
      ∃ syms, rest.map lower = syms.map charOf ∧ polymod (hrpExpand hrp ++ syms) = finalConst ∧
        hrp' = hrp ∧ data = dataOf syms := by
  simp only [← symbolsOf_eq_ok, decodeParts]
  cases symbolsOf rest with
  | error e => simp
  | ok syms =>
    simp only [Except.ok.injEq, exists_eq_left']
    split
    · simp [*]
    · simp_all [dataOf, eq_comm]

/-- The split succeeds on an HRP and characters that spell a checked sequence of symbols. -/
theorem decodeSplit_eq_ok {s hrp : Str} {data : List Byte} :
    decodeSplit s = .ok (hrp, data) ↔
      ∃ body syms, s = hrp ++ separator :: body ∧ hrp ≠ [] ∧ body.map lower = syms.map charOf ∧
        Config.checksumLen ≤ syms.length ∧ polymod (hrpExpand hrp ++ syms) = finalConst ∧ data = dataOf syms := by
  constructor
  · intro h
    cases hlast : lastIndexOf separator s with
    | none => simp [decodeSplit, hlast] at h
    | some p =>
      have hsplit := lastIndexOf_eq_some hlast
      simp only [decodeSplit, hlast] at h
      split at h
      · exact nomatch h
      · rename_i hplace
        obtain ⟨syms, hspells, hchk, rfl, rfl⟩ := decodeParts_eq_ok.1 h
        have hlen : s.length - (p + 1) = syms.length := by simpa using congrArg List.length hspells
        refine ⟨_, syms, hsplit, ?_, hspells, by omega, hchk, rfl⟩
        intro hnil
        have hzero : p = 0 ∨ s = [] := by simpa using hnil
        exact hzero.elim (fun h0 => hplace (.inl h0)) (fun h0 => by simp [h0, lastIndexOf] at hlast)
  · rintro ⟨body, syms, rfl, hne, hspells, hroom, hchk, rfl⟩
    have hlen : body.length = syms.length := by simpa using congrArg List.length hspells
    have hplace : ¬(hrp.length = 0 ∨
        (hrp ++ separator :: body).length - hrp.length - 1 < Config.checksumLen) := by
      simp only [List.length_eq_zero_iff, hne, List.length_append, List.length_cons, false_or]
      omega
    have hdrop : (hrp ++ separator :: body).drop (hrp.length + 1) = body := by
      rw [← List.drop_drop, List.drop_left, List.drop_one, List.tail_cons]
    rw [decodeSplit, lastIndexOf_append hrp (separator_not_mem hspells)]
    dsimp only
    rw [if_neg hplace, List.take_left, hdrop]
    exact decodeParts_eq_ok.2 ⟨syms, hspells, hchk, rfl, rfl⟩

/-- R100: decoding succeeds exactly on the addresses, with the HRP and the data. -/
theorem decodeString_eq_ok {s hrp : Str} {data : List Byte} :
    decodeString s = .ok (hrp, data) ↔ ∃ body syms, IsAddress s hrp body syms ∧ data = dataOf syms := by
  simp only [decodeString_eq_checks, check_then_eq_ok, check_eq_ok, scan_eq_ok, decodeSplit_eq_ok,
    decide_eq_true_eq]
  constructor
  · rintro ⟨-, hmax, ⟨hband, hcase⟩, body, syms, hsplit, hne, hspells, hroom, hchk, hdata⟩
    exact ⟨body, syms, ⟨hsplit, hne, hmax, hband, hcase, hspells, hroom, hchk⟩, hdata⟩
  · rintro ⟨body, syms, h, hdata⟩
    exact ⟨h.addressMin_le, h.short, ⟨h.band, h.oneCase⟩, body, syms, h.split, h.hrp_ne, h.spells, h.room,
      h.checks, hdata⟩

/-! ## Encoding -/

theorem encodeString_eq_ok {hrp s : Str} {data : List Byte} :
    encodeString hrp data = .ok s ↔
      hrp ≠ [] ∧ (hrp.all inBand = true ∧ mixed hrp = false) ∧ addressLength hrp data ≤ Config.addressMax ∧
        (∀ v ∈ data, v.toNat ≤ 31) ∧ s = hrp ++ [separator] ++ addressBody hrp (toSymbols data) := by
  simp only [encodeString_eq_checks, check_then_eq_ok, check_eq_ok, scan_eq_ok, decide_eq_true_eq,
    Except.ok.injEq, eq_comm (b := s)]
  simp

/-- The symbols of the address of an HRP and data: the data's and the checksum's (R98). -/
def addressSymbols (hrp : Str) (data : List Symbol) : List Symbol :=
  data ++ checksumSymbols (createChecksum hrp data)

theorem addressSymbols_length (hrp : Str) (data : List Symbol) :
    (addressSymbols hrp data).length = data.length + Config.checksumLen := by
  simp [addressSymbols, checksumSymbols, Config.checksumLen]

/-- The last six symbols bring the accumulator to the final constant (42_checksum.md R83). -/
theorem polymod_addressSymbols (hrp : Str) (data : List Symbol) :
    polymod (hrpExpand hrp ++ addressSymbols hrp data) = finalConst := by
  rw [addressSymbols, createChecksum, ← List.append_assoc, polymod, polymod, stepAll_append,
    stepAll_append _ _ [0, 0, 0, 0, 0, 0]]
  exact stepAll_checksumSymbols_xor _ _

theorem ofSymbols_toSymbols {data : List Byte} (h : ∀ v ∈ data, v.toNat ≤ 31) :
    ofSymbols (toSymbols data) = data := by
  rw [ofSymbols, toSymbols, List.map_map]
  refine (List.map_congr_left fun v hv => ?_).trans (List.map_id data)
  refine BitVec.eq_of_toNat_eq ?_
  have hle := h v hv
  simp only [Function.comp_apply, BitVec.toNat_setWidth, id_eq]
  omega

theorem dataOf_addressSymbols (hrp : Str) {data : List Byte} (h : ∀ v ∈ data, v.toNat ≤ 31) :
    dataOf (addressSymbols hrp (toSymbols data)) = data := by
  rw [dataOf, addressSymbols_length, Nat.add_sub_cancel, addressSymbols, List.take_left, ofSymbols_toSymbols h]

theorem addressBody_spells (hrp : Str) (data : List Symbol) :
    (addressBody hrp data).map lower = (addressSymbols hrp data).map charOf := by
  cases hup : hrp.any isUpperLetter <;>
    simp [addressBody, addressSymbols, hup, lower_charOf, lower_upper_charOf, Function.comp_def]

theorem charOf_band_lower (v : Symbol) : inBand (charOf v) = true ∧ isUpperLetter (charOf v) = false := by
  revert v
  decide

theorem addressBody_band (hrp : Str) (data : List Symbol) : (addressBody hrp data).all inBand = true := by
  have hsym (v : Symbol) : inBand (charOf v) = true := (charOf_band_lower v).1
  cases hup : hrp.any isUpperLetter <;> simp [addressBody, hup, inBand_upper, hsym]

/-- The body is in the HRP's case (R98). -/
theorem addressBody_case (hrp : Str) (data : List Symbol) :
    ∀ c ∈ addressBody hrp data,
      if hrp.any isUpperLetter then isLowerLetter c = false else isUpperLetter c = false := by
  intro c hc
  cases hup : hrp.any isUpperLetter with
  | false =>
    rw [addressBody, hup] at hc
    obtain ⟨v, -, rfl⟩ := List.mem_map.1 hc
    exact (charOf_band_lower v).2
  | true =>
    rw [addressBody, hup] at hc
    obtain ⟨d, -, rfl⟩ := List.mem_map.1 hc
    exact isLowerLetter_upper d

end Sys2Proof.Machine
end

section
/-! PROOFS. The properties of the host codec (44_host_codec.md R102), from what makes a string an address: encoding
builds addresses, case forms of an address are addresses, and a one-character change is none. -/

namespace Sys2Proof.Machine

open Sys2Proof.Safety

/-! ## Encoding builds an address -/

/-- The HRP's case is the whole address's. -/
theorem mixed_address {hrp : Str} (hcase : mixed hrp = false) (data : List Symbol) :
    mixed (hrp ++ separator :: addressBody hrp data) = false := by
  have hbody := addressBody_case hrp data
  have hsep : isUpperLetter separator = false ∧ isLowerLetter separator = false := by decide
  refine mixed_eq_false.2 ?_
  cases hup : hrp.any isUpperLetter with
  | true =>
    have hlow : hrp.any isLowerLetter = false := (mixed_eq_false.1 hcase).resolve_left (by simp [hup])
    have hno : ∀ c ∈ addressBody hrp data, isLowerLetter c = false := by simpa [hup] using hbody
    refine .inr ?_
    rw [List.any_append, hlow, List.any_cons, hsep.2]
    simpa using hno
  | false =>
    have hno : ∀ c ∈ addressBody hrp data, isUpperLetter c = false := by simpa [hup] using hbody
    refine .inl ?_
    rw [List.any_append, hup, List.any_cons, hsep.1]
    simpa using hno

theorem isAddress_of_encodeString {hrp s : Str} {data : List Byte} (h : encodeString hrp data = .ok s) :
    IsAddress s hrp (addressBody hrp (toSymbols data)) (addressSymbols hrp (toSymbols data)) := by
  obtain ⟨hne, ⟨hband, hcase⟩, hlen, -, rfl⟩ := encodeString_eq_ok.1 h
  have hspells := addressBody_spells hrp (toSymbols data)
  have hbody : (addressBody hrp (toSymbols data)).length = data.length + Config.checksumLen := by
    simpa [addressSymbols_length, toSymbols] using congrArg List.length hspells
  exact {
    split := by simp
    hrp_ne := hne
    short := by
      rw [List.length_append, List.length_append, hbody]
      exact (Nat.add_assoc _ _ _).symm.trans_le hlen
    band := by simp [hband, addressBody_band, show inBand separator = true by decide]
    oneCase := by simpa using mixed_address hcase (toSymbols data)
    spells := hspells
    room := by simp [addressSymbols_length]
    checks := polymod_addressSymbols hrp _ }

/-- Settles O54: an encoded string is the address of its HRP and data. -/
theorem decodeUndoesEncodeOfStrings : Obligations.DecodeUndoesEncodeOfStrings := by
  intro hrp s data h
  obtain ⟨-, -, -, hdata, -⟩ := encodeString_eq_ok.1 h
  exact decodeString_eq_ok.2 ⟨_, _, isAddress_of_encodeString h, (dataOf_addressSymbols hrp hdata).symm⟩

theorem validHrp_eq_true {hrp : Str} :
    validHrp hrp = true ↔ 1 ≤ hrp.length ∧ hrp.length ≤ 83 ∧ hrp.all inBand = true ∧ mixed hrp = false := by
  rw [← Bool.not_eq_true' (mixed hrp)]
  simp only [validHrp, mixed, Bool.and_eq_true, decide_eq_true_eq, and_assoc]

/-- An HRP that leaves room for the rest of an address is short enough to be valid (R96). -/
theorem exists_encodeString_iff {hrp : Str} {data : List Byte} :
    (∃ s, encodeString hrp data = .ok s) ↔
      validHrp hrp = true ∧ (∀ v ∈ data, v.toNat ≤ 31) ∧ hrp.length + 1 + data.length + 6 ≤ 90 := by
  simp only [encodeString_eq_ok, exists_and_left, exists_eq, and_true, validHrp_eq_true, addressLength,
    Config.checksumLen, Config.addressMax, ← List.length_pos_iff]
  constructor
  · rintro ⟨hne, ⟨hband, hcase⟩, hlen, hdata⟩
    exact ⟨⟨hne, by omega, hband, hcase⟩, hdata, hlen⟩
  · rintro ⟨⟨hne, -, hband, hcase⟩, hdata, hlen⟩
    exact ⟨hne, ⟨hband, hcase⟩, hlen, hdata⟩

/-- Settles O58: the checks of `encode`, and the address it builds. -/
theorem encodeSucceedsExactlyOnValidInput : Obligations.EncodeSucceedsExactlyOnValidInput := by
  refine fun hrp data => ⟨exists_encodeString_iff, fun s hs => ?_⟩
  have haddr := isAddress_of_encodeString hs
  exact ⟨haddr.addressMin_le, haddr.short, _, by simpa [separator] using haddr.split,
    mapM_symOf_eq_some.2 haddr.spells, addressBody_case hrp _⟩

/-! ## Case forms and lengths -/

theorem decodeString_map_case {s hrp : Str} {data : List Byte} (h : decodeString s = .ok (hrp, data))
    {f : Byte → Byte} (hlower : ∀ c, lower (f c) = lower c) (hband : ∀ c, inBand (f c) = inBand c)
    (hsep : f separator = separator) (hcase : mixed (s.map f) = false) :
    decodeString (s.map f) = .ok (hrp.map f, data) := by
  obtain ⟨body, syms, haddr, hdata⟩ := decodeString_eq_ok.1 h
  exact decodeString_eq_ok.2 ⟨_, syms, haddr.map_case hlower hband hsep hcase, hdata⟩

theorem decodeString_map_upper {s hrp : Str} {data : List Byte} (h : decodeString s = .ok (hrp, data)) :
    decodeString (s.map upper) = .ok (hrp.map upper, data) :=
  decodeString_map_case h lower_upper inBand_upper rfl
    (mixed_eq_false.2 (.inr (by simp [isLowerLetter_upper])))

theorem decodeString_map_lower {s hrp : Str} {data : List Byte} (h : decodeString s = .ok (hrp, data)) :
    decodeString (s.map lower) = .ok (hrp.map lower, data) :=
  decodeString_map_case h lower_lower inBand_lower rfl
    (mixed_eq_false.2 (.inl (by simp [isUpperLetter_lower])))

/-- A string that is the address of nothing is rejected. -/
theorem exists_error_of_not_isAddress {s : Str} (h : ∀ hrp body syms, ¬IsAddress s hrp body syms) :
    ∃ e, decodeString s = .error e := by
  cases hdec : decodeString s with
  | error e => exact ⟨e, rfl⟩
  | ok r =>
    obtain ⟨body, syms, haddr, -⟩ := decodeString_eq_ok.1 hdec
    exact absurd haddr (h _ _ _)

theorem decodeString_of_short {s : Str} (h : s.length < Config.addressMin) :
    decodeString s = .error .lengthTooShort :=
  if_pos h

theorem decodeString_of_long {s : Str} (h : Config.addressMax < s.length) :
    decodeString s = .error .lengthTooLong := by
  have hmin : ¬s.length < Config.addressMin := Nat.not_lt.2 (Nat.le_of_lt (Nat.lt_of_le_of_lt (by decide) h))
  rw [decodeString, if_neg hmin, if_pos h]

/-- Every length of R97 has an address: that of the HRP `a` and zero symbols. -/
theorem exists_decodeString_of_length {n : Nat} (hmin : 8 ≤ n) (hmax : n ≤ 90) :
    ∃ s, s.length = n ∧ ∃ hrp data, decodeString s = .ok (hrp, data) := by
  have hlen : (ascii "a").length = 1 := rfl
  obtain ⟨s, hs⟩ : ∃ s, encodeString (ascii "a") (List.replicate (n - 8) 0) = .ok s := by
    refine exists_encodeString_iff.2 ⟨by decide, fun v hv => ?_, ?_⟩
    · rw [List.eq_of_mem_replicate hv]
      decide
    · rw [hlen, List.length_replicate]
      omega
  refine ⟨s, ?_, _, _, decodeUndoesEncodeOfStrings _ _ _ hs⟩
  rw [(isAddress_of_encodeString hs).length_eq, addressSymbols_length, hlen, toSymbols, List.length_map,
    List.length_replicate, Config.checksumLen]
  omega

/-- Settles O55: a case form keeps all that makes an address, and a length in range has an encoding. -/
theorem uppercaseFormDecodesAlike : Obligations.UppercaseFormDecodesAlike := by
  refine ⟨fun s hrp data h => ⟨decodeString_map_upper h, decodeString_map_lower h⟩, fun s hup hlow => ?_,
    fun s => ⟨decodeString_of_short, decodeString_of_long⟩, fun n => exists_decodeString_of_length⟩
  refine exists_error_of_not_isAddress fun _ _ _ haddr => ?_
  simpa [mixed, hup, hlow] using haddr.oneCase

/-- Refutes O57: in `a19267542334` only the HRP is a letter, so changing it to `A` gives the uppercase form. -/
theorem not_everyOneCharacterChangeIsRejected : ¬ Obligations.EveryOneCharacterChangeIsRejected := by
  intro h
  obtain ⟨hdec, hold, hplace, hne⟩ := Tests.witness_EveryOneCharacterChangeIsRejected
  obtain ⟨e, he⟩ := h _ _ _ 0 0x61 0x41 hdec hold hplace hne
  have hform : (ascii "a19267542334").set 0 0x41 = (ascii "a19267542334").map upper := by decide
  rw [hform, decodeString_map_upper hdec] at he
  exact nomatch he

/-! ## One character changed -/

/-- A changed symbol changes the accumulator, wherever it stands (42_checksum.md R85). -/
theorem stepAll_ne_of_set {c : Checksum} (pre post : List Symbol) {v w : Symbol} (hne : v ≠ w) :
    stepAll c (pre ++ v :: post) ≠ stepAll c (pre ++ w :: post) := by
  intro h
  rw [stepAll_append, stepAll_append, stepAll_cons, stepAll_cons] at h
  exact hne (stepChk_right_inj (stepAll_left_inj h))

theorem differences_concat (mid : List Symbol) (w w' : Symbol) :
    differences (mid ++ [w]) (mid ++ [w']) = if w = w' then 0 else 1 := by
  induction mid with
  | nil => by_cases h : w = w' <;> simp [differences, h]
  | cons x mid ih => rw [List.cons_append, List.cons_append, differences_cons_same, ih]

/-- Two symbols at most 89 places apart, at least one of them changed, change the accumulator (R85). -/
theorem stepAll_ne_of_two_set {c : Checksum} (pre mid post : List Symbol) (hmid : mid.length ≤ 88)
    {v v' w w' : Symbol} (hne : ¬(v = v' ∧ w = w')) :
    stepAll c (pre ++ v :: (mid ++ w :: post)) ≠ stepAll c (pre ++ v' :: (mid ++ w' :: post)) := by
  by_cases hv : v = v'
  · subst hv
    have hw : w ≠ w' := fun hw => hne ⟨rfl, hw⟩
    simpa using stepAll_ne_of_set (c := c) (pre ++ v :: mid) post hw
  · have hdiff : differences (v :: (mid ++ [w])) (v' :: (mid ++ [w'])) = 1 ∨
        differences (v :: (mid ++ [w])) (v' :: (mid ++ [w'])) = 2 := by
      rw [differences_cons_of_ne hv, differences_concat]
      split
      · exact .inl rfl
      · exact .inr rfl
    have hwindow := stepAll_ne_of_differences (c := stepAll c pre) (by simp) (by simp; omega) hdiff
    intro h
    refine hwindow (stepAll_left_inj (vs := post) ?_)
    simpa [← stepAll_append] using h

/-- A changed HRP character changes the accumulator: its two parts stand one HRP's length apart. -/
theorem polymod_ne_of_hrp_set (pre post : Str) {c d : Byte} (hshort : (pre ++ post).length ≤ 87)
    (hne : lower c ≠ lower d) (syms : List Symbol) :
    polymod (hrpExpand (pre ++ c :: post) ++ syms) ≠ polymod (hrpExpand (pre ++ d :: post) ++ syms) := by
  have hparts : ¬(hrpHigh c = hrpHigh d ∧ hrpLow c = hrpLow d) := mt hrpParts_eq_iff.1 hne
  have hmid : (post.map hrpHigh ++ 0 :: pre.map hrpLow).length ≤ 88 := by
    simp at hshort ⊢
    omega
  have h := stepAll_ne_of_two_set (c := chkInit) (pre.map hrpHigh) (post.map hrpHigh ++ 0 :: pre.map hrpLow)
    (post.map hrpLow ++ syms) hmid hparts
  simpa [polymod, hrpExpand] using h

/-- The place of a character of a string, and the string with that character changed. -/
theorem exists_set_split {s : Str} {k : Nat} {old : Byte} (h : s[k]? = some old) :
    ∃ pre post, s = pre ++ old :: post ∧ ∀ new, s.set k new = pre ++ new :: post := by
  obtain ⟨hk, rfl⟩ := List.getElem?_eq_some_iff.1 h
  refine ⟨s.take k, s.drop (k + 1), ?_, fun new => ?_⟩
  · rw [List.getElem_cons_drop, List.take_append_drop]
  · rw [List.set_eq_take_append_cons_drop, if_pos hk]

theorem eq_of_spells {body : Str} {vs ws : List Symbol} (hvs : body.map lower = vs.map charOf)
    (hws : body.map lower = ws.map charOf) : vs = ws :=
  Except.ok.inj ((symbolsOf_eq_ok.2 hvs).symm.trans (symbolsOf_eq_ok.2 hws))

/-- The symbols before, at and after a character of the body. -/
theorem spells_append_cons {pre post : Str} {c : Byte} {syms : List Symbol}
    (h : (pre ++ c :: post).map lower = syms.map charOf) :
    ∃ vs v ws, syms = vs ++ v :: ws ∧ pre.map lower = vs.map charOf ∧ lower c = charOf v ∧
      post.map lower = ws.map charOf := by
  rw [List.map_append, List.map_cons] at h
  obtain ⟨vs, rest, rfl, hvs, hrest⟩ := List.map_eq_append_iff.1 h.symm
  obtain ⟨v, ws, rfl, hv, hws⟩ := List.map_eq_cons_iff.1 hrest
  exact ⟨vs, v, ws, rfl, hvs.symm, hv.symm, hws.symm⟩

section

variable {s hrp body pre post : Str} {syms : List Symbol} {old new : Byte}

/-- Changing an HRP character leaves no address: the separator and the body stay. -/
theorem not_isAddress_of_hrp_set (h : IsAddress s (pre ++ old :: post) body syms) (hne : lower new ≠ lower old)
    (hrp' body' : Str) (syms' : List Symbol) :
    ¬IsAddress (pre ++ new :: post ++ separator :: body) hrp' body' syms' := by
  intro h'
  obtain ⟨rfl, rfl⟩ := split_unique (separator_not_mem h.spells) (separator_not_mem h'.spells) h'.split
  obtain rfl := eq_of_spells h.spells h'.spells
  have hlen : (pre ++ post).length ≤ 87 := by
    have hlong := h.length_eq ▸ h.short
    have hroom := h.room
    simp only [Config.addressMax, Config.checksumLen, List.length_append, List.length_cons] at hlong hroom ⊢
    omega
  exact polymod_ne_of_hrp_set pre post hlen hne syms (h'.checks.trans h.checks.symm)

/-- Changing a character of the body to no separator leaves no address: the HRP stays. -/
theorem not_isAddress_of_body_set (h : IsAddress s hrp (pre ++ old :: post) syms) (hne : lower new ≠ lower old)
    (hsep : new ≠ separator) (hrp' body' : Str) (syms' : List Symbol) :
    ¬IsAddress (hrp ++ separator :: (pre ++ new :: post)) hrp' body' syms' := by
  intro h'
  have hold := separator_not_mem h.spells
  have hnew : separator ∉ pre ++ new :: post := by simp_all [eq_comm]
  obtain ⟨rfl, rfl⟩ := split_unique hnew (separator_not_mem h'.spells) h'.split
  obtain ⟨vs, v, ws, rfl, hvs, hv, hws⟩ := spells_append_cons h.spells
  obtain ⟨vs', w, ws', rfl, hvs', hw, hws'⟩ := spells_append_cons h'.spells
  obtain rfl := eq_of_spells hvs hvs'
  obtain rfl := eq_of_spells hws hws'
  have hvw : w ≠ v := fun heq => hne (hw.trans (heq ▸ hv.symm))
  refine stepAll_ne_of_set (c := chkInit) (hrpExpand hrp ++ vs) ws hvw ?_
  simpa [polymod] using h'.checks.trans h.checks.symm

end

/-- Settles O56: the changed character stands before or after the separator. -/
theorem oneCharacterChangeIsRejected : Obligations.OneCharacterChangeIsRejected := by
  intro s hrp data k old new hdec hold hplace hne hsep
  obtain ⟨body, syms, h, -⟩ := decodeString_eq_ok.1 hdec
  have hsplit := h.split
  refine exists_error_of_not_isAddress ?_
  rw [hsplit] at hold ⊢
  rcases Nat.lt_or_gt_of_ne hplace with hk | hk
  · rw [List.getElem?_append_left hk] at hold
    obtain ⟨pre, post, rfl, hset⟩ := exists_set_split hold
    rw [List.set_append_left _ _ hk, hset]
    exact not_isAddress_of_hrp_set h hne
  · obtain ⟨j, rfl⟩ := Nat.exists_eq_add_of_lt hk
    have hj : hrp.length + j + 1 - hrp.length = j + 1 := by omega
    rw [List.getElem?_append_right (by omega), hj, List.getElem?_cons_succ] at hold
    obtain ⟨pre, post, rfl, hset⟩ := exists_set_split hold
    rw [List.set_append_right _ _ (by omega), hj, List.set_cons_succ, hset]
    exact not_isAddress_of_body_set h hne (hsep hk)

end Sys2Proof.Machine
end

section
/-! PROOFS. Host procedures on the block (44_host_codec.md R94). `Realises` says that a procedure computes a given
result and leaves a given block; its rules follow the procedures' own sequencing, so that a procedure and the pure
function it realises are compared check by check. -/

namespace Sys2Proof.Machine

open HostProc

/-! ## What a procedure realises -/

/-- The same block with other answers on the bus (log 1). -/
def State.withReplies (s : State) (rs : List Reply) : State := { s with replies := rs }

/-- From the block `s`, whatever the bus has answered before, the procedure ends with `r`; where that is a value,
it leaves the block `t`, up to the answers on the bus. -/
def Realises {α : Type} (p : HostProc α) (s : State) (r : Except HostError α) (t : State) : Prop :=
  ∀ rs, (p (s.withReplies rs)).1 = r ∧ ∀ a, r = .ok a → ∃ rs', (p (s.withReplies rs)).2 = t.withReplies rs'

namespace Realises

theorem of_ok {α : Type} {p : HostProc α} {s t : State} {a : α}
    (h : ∀ rs, ∃ rs', p (s.withReplies rs) = (.ok a, t.withReplies rs')) : Realises p s (.ok a) t := by
  intro rs
  obtain ⟨rs', hrun⟩ := h rs
  exact ⟨congrArg Prod.fst hrun, fun _ _ => ⟨rs', congrArg Prod.snd hrun⟩⟩

/-- After a failure the block that is left does not count. -/
theorem of_failed {α : Type} {p : HostProc α} {s t : State} {e : HostError} (h : Realises p s (.error e) t)
    (u : State) : Realises p s (.error e) u :=
  fun rs => ⟨(h rs).1, nofun⟩

theorem fst_eq {α : Type} {p : HostProc α} {s t : State} {r : Except HostError α} (h : Realises p s r t) :
    (p s).1 = r :=
  (h s.replies).1

section

variable {α β : Type} {p : HostProc α} {f : α → HostProc β} {s t u : State}

/-- One procedure after another realises the two results in sequence. -/
theorem bind {r : Except HostError α} {g : α → Except HostError β} (hp : Realises p s r t)
    (hf : ∀ a, r = .ok a → Realises (f a) t (g a) u) : Realises (p.andThen f) s (r >>= g) u := by
  intro rs
  obtain ⟨hres, hblock⟩ := hp rs
  cases r with
  | error e =>
    rw [andThen_of_error (Prod.ext hres rfl)]
    exact ⟨rfl, nofun⟩
  | ok a =>
    obtain ⟨rs', hrs⟩ := hblock a rfl
    rw [andThen_of_ok (Prod.ext hres hrs)]
    exact hf a rfl rs'

/-- A procedure that always gives a value has no counterpart in the pure function. -/
theorem andThen {a : α} {r : Except HostError β} (hp : Realises p s (.ok a) t) (hf : Realises (f a) t r u) :
    Realises (p.andThen f) s r u :=
  bind (g := fun _ => r) hp fun _ ha => Except.ok.inj ha ▸ hf

theorem andThen_failed {e : HostError} (hp : Realises p s (.error e) t) (u : State) :
    Realises (p.andThen f) s (.error e) u :=
  bind (g := fun _ => .error e) hp nofun

end

theorem done {α : Type} (a : α) (s : State) : Realises (done a) s (.ok a) s :=
  of_ok fun rs => ⟨rs, rfl⟩

theorem fail {α : Type} (e : HostError) (s t : State) : Realises (fail (α := α) e) s (.error e) t :=
  fun _ => ⟨rfl, nofun⟩

theorem require (ok : Bool) (e : HostError) (s : State) : Realises (require ok e) s (check ok e) s := by
  cases ok with
  | false => exact fail e s s
  | true => exact done () s

end Realises

/-! ## Accesses -/

theorem hostAccess_of_step {e : BusEvent} {s t : State} {r : Reply}
    (h : step (s.setPending (e :: s.pending)) = .next (t.logReply r)) :
    hostAccess e s = (.ok r, t.logReply r) := by
  simp [hostAccess, h]

theorem memWrite_cmd {i : Instr} {s t : State} (hi : i.wellFormed = true) (h : exec i s = .next t) :
    memWrite 0x04 (encode i) s = (.ok (), t.logReply .written) := by
  have hstep : step (s.setPending (.write 32 (s.baseAddr + 0x04) (encode i) :: s.pending)) =
      .next (t.logReply .written) :=
    (step_of_command (decodeInvertsEncode i hi) rfl).trans (congrArg (answered .written) h)
  rw [memWrite, hostAccess_of_step hstep]

theorem memRead_window {off : Nat} (hoff : off < 256) (halign : off % 4 = 0) (s : State) :
    memRead off s = (.ok (registerValue (registerAt off) s),
      (afterRead (registerAt off) s).logReply (.data (registerValue (registerAt off) s))) := by
  have hstep := step_read_window (s := s.setPending (.read 32 (s.baseAddr + off) :: s.pending)) hoff halign rfl
  rw [registerValue_setPending] at hstep
  rw [memRead, hostAccess_of_step hstep]
  rfl

theorem registerValue_withReplies (r : Register) (s : State) (rs : List Reply) :
    registerValue r (s.withReplies rs) = registerValue r s := by
  cases r <;> rfl

theorem afterRead_withReplies (r : Register) (s : State) (rs : List Reply) :
    afterRead r (s.withReplies rs) = (afterRead r s).withReplies rs := by
  cases r <;> rfl

/-- A read answers the register and leaves what `afterRead` says (R40). -/
theorem realises_memRead {off : Nat} (hoff : off < 256) (halign : off % 4 = 0) (s : State) :
    Realises (memRead off) s (.ok (registerValue (registerAt off) s)) (afterRead (registerAt off) s) := by
  refine .of_ok fun rs => ⟨.data (registerValue (registerAt off) s) :: rs, ?_⟩
  rw [memRead_window hoff halign, registerValue_withReplies, afterRead_withReplies]
  rfl

theorem realises_readStatus (s : State) : Realises (memRead 0x08) s (.ok (statusWord s)) s :=
  realises_memRead (by decide) (by decide) s

theorem realises_readCkres (s : State) : Realises readCkres s (.ok s.ckres) s := by
  have hfield : (s.ckres.setWidth 32).extractLsb' 0 30 = s.ckres := by
    refine BitVec.eq_of_toNat_eq ?_
    rw [BitVec.extractLsb'_toNat, BitVec.toNat_setWidth_of_le (by decide), Nat.shiftRight_zero]
    exact Nat.mod_eq_of_lt s.ckres.isLt
  have hread : Realises (memRead 0x14) s (.ok (s.ckres.setWidth 32)) s :=
    realises_memRead (by decide) (by decide) s
  refine .andThen hread ?_
  rw [hfield]
  exact .done s.ckres s

/-- What a read of `OQDATA` shows for an entry: the entry with bit 8 set (10_state.md R28). -/
theorem oqdata_fields (x : Byte) :
    (BitVec.ofNat 32 (0x100 + x.toNat)).getLsbD 8 = true ∧
      (BitVec.ofNat 32 (0x100 + x.toNat)).extractLsb' 0 8 = x := by
  revert x
  decide

/-- A pop answers the head of the queue and drops it (R94). -/
theorem realises_pop {s : State} {x : Byte} {xs : List Byte} (h : s.oq = x :: xs) :
    Realises pop s (.ok x) s.dropHead := by
  obtain ⟨hvalid, hentry⟩ := oqdata_fields x
  have hread : Realises (memRead 0x20) s (.ok (oqdataWord s)) s.dropHead :=
    realises_memRead (by decide) (by decide) s
  refine .andThen hread ?_
  rw [oqdataWord_of_cons h, if_pos hvalid, hentry]
  exact .done x _

/-! ## Commands -/

theorem errOfCode_code (e : ErrCode) : errOfCode e.code = e := by cases e <;> rfl

theorem code_ne_zero {e : ErrCode} : e.code ≠ 0 ↔ e ≠ .noError := by cases e <;> decide

section

variable {i : Instr} {s t : State} (p : Procedure)

/-- The host sees a command's error in `STATUS` (R94). -/
theorem realises_cmd_of_exec (hi : i.wellFormed = true)
    (h : ∀ rs, exec i (s.withReplies rs) = .next (t.withReplies rs)) :
    Realises (cmd p i) s (if t.err ≠ .noError then .error (hostError p t.err) else .ok ()) t := by
  have hwrite : Realises (memWrite 0x04 (encode i)) s (.ok ()) t :=
    .of_ok fun rs => ⟨.written :: rs, memWrite_cmd hi (h rs)⟩
  refine .andThen hwrite (.andThen (realises_readStatus t) ?_)
  simp only [(statusWord_fields t).1, code_ne_zero, errOfCode_code]
  split
  · exact .fail _ _ _
  · exact .done () _

theorem realises_cmd (hi : i.wellFormed = true) (h : ∀ rs, exec i (s.withReplies rs) = .next (t.withReplies rs))
    (hok : t.err = .noError) : Realises (cmd p i) s (.ok ()) t := by
  simpa [hok] using realises_cmd_of_exec p hi h

theorem realises_cmd_raised (hi : i.wellFormed = true)
    (h : ∀ rs, exec i (s.withReplies rs) = .next (t.withReplies rs)) (hbad : t.err ≠ .noError) (u : State) :
    Realises (cmd p i) s (.error (hostError p t.err)) u := by
  have hfail := realises_cmd_of_exec p hi h
  rw [if_pos hbad] at hfail
  exact hfail.of_failed u

/-- The error of a command's rule ends the procedure. -/
theorem realises_rule_error {rule : State → Except ErrCode State} (hi : i.wellFormed = true)
    (hexec : ∀ s, exec i s = runRule i rule s) (hfree : s.err = .noError) {e : ErrCode} (he : e ≠ .noError)
    (h : ∀ rs, rule (s.withReplies rs) = .error e) (u : State) :
    Realises (cmd p i) s (.error (hostError p e)) u :=
  realises_cmd_raised p hi (t := s.capture e (encode i))
    (fun rs => (hexec _).trans (runRule_of_error (s := s.withReplies rs) hfree i (h rs))) he u

theorem realises_sysRst : Realises (cmd p .sysRst) s (.ok ()) s.resetBlock :=
  realises_cmd p rfl (fun _ => rfl) rfl

end

/-! ## Sequences of commands -/

theorem HostProc.andThen_assoc {α β γ : Type} (x : HostProc α) (f : α → HostProc β) (g : β → HostProc γ) :
    (x.andThen f).andThen g = x.andThen fun a => (f a).andThen g := by
  funext s
  rcases hx : x s with ⟨_ | a, t⟩
  · rw [andThen_of_error hx, andThen_of_error (andThen_of_error hx)]
  · rw [andThen_of_ok hx, andThen, andThen_of_ok hx, andThen]

theorem cmds_append (p : Procedure) (is js : List Instr) :
    cmds p (is ++ js) = (cmds p is).andThen fun _ => cmds p js := by
  induction is with
  | nil => rfl
  | cons i is ih => rw [List.cons_append, cmds, cmds, ih, andThen_assoc]

section

variable {α : Type} {xs : List α} {command : α → Instr} {s : State} (p : Procedure)

/-- Commands that check an operand and fold a symbol each (42_checksum.md R78 to R80). -/
theorem realises_folds {checks : α → Except HostError Unit} {symbol : α → Symbol}
    (hfold : ∀ x ∈ xs, ∀ s : State, s.err = .noError →
      Realises (cmd p (command x)) s (checks x) (s.setChk (stepChk s.chk (symbol x))))
    (hfree : s.err = .noError) :
    Realises (cmds p (xs.map command)) s (forM xs checks) (s.setChk (stepAll s.chk (xs.map symbol))) := by
  induction xs generalizing s with
  | nil => exact .done () s
  | cons x xs ih =>
    obtain ⟨hx, hxs⟩ := List.forall_mem_cons.1 hfold
    exact .bind (hx s hfree) fun _ _ => ih hxs hfree

/-- A command and a pop for each, where each pair answers one entry and leaves the block as it was. -/
theorem realises_popEach {out : α → Except HostError Byte}
    (hpair : ∀ x ∈ xs, Realises ((cmd p (command x)).andThen fun _ => pop) s (out x) s) :
    Realises (popEach p (xs.map command)) s (xs.mapM out) s := by
  induction xs with
  | nil => exact .done [] s
  | cons x xs ih =>
    obtain ⟨hx, hxs⟩ := List.forall_mem_cons.1 hpair
    rw [List.map_cons, popEach, ← andThen_assoc, List.mapM_cons]
    exact .bind hx fun a _ => .bind (ih hxs) fun as _ => .done (a :: as) s

end

end Sys2Proof.Machine
end

section
/-! PROOFS. `host_encode` and `host_decode` on the block realise `encode` and `decode` (44_host_codec.md R98 to R101):
what each part of the procedures realises, then the two compositions. -/

namespace Sys2Proof.Machine

open HostProc

/-! ## The case check -/

section

variable {s : State} (p : Procedure)

theorem realises_cmCase {k : CaseSeen} {c : Byte} (hfree : s.err = .noError) (hband : inBand c = true)
    (htrack : trackCase s.caseSeen c = .ok k) : Realises (cmd p (.cmCase c)) s (.ok ()) (s.setCase k) :=
  realises_cmd p rfl (t := s.setCase k)
    (fun rs => runRule_of_ok (s := s.withReplies rs) hfree _ (checkChar_eq_ok.2 ⟨hband, k, htrack, rfl⟩)) hfree

/-- The block's case check of a string is the scan (R99, R101). -/
theorem realises_cmCases_after {seen : Str} (text : Str) (hfree : s.err = .noError) (hseen : mixed seen = false)
    (hcase : s.caseSeen = caseOf seen) :
    Realises (cmds p (text.map .cmCase)) s (scan p seen text) (s.setCase (caseOf (seen ++ text))) := by
  induction text generalizing s seen with
  | nil =>
    have hsame : s.setCase (caseOf (seen ++ [])) = s := by rw [List.append_nil, ← hcase]; rfl
    rw [hsame]
    exact .done () s
  | cons c rest ih =>
    have htrack := trackCase_caseOf hseen c
    rw [← hcase] at htrack
    rw [scan_cons, List.map_cons, cmds]
    cases hband : inBand c with
    | false =>
      have hrule (rs : List Reply) : checkChar c (s.withReplies rs) = .error .ascii :=
        checkChar_of_charOperand_error (charOperand_eq_error.2 ⟨hband, rfl⟩)
      exact .andThen_failed (realises_rule_error p rfl (fun _ => rfl) hfree (by decide) hrule s) _
    | true =>
      have hchar : charOperand c = .ok c := charOperand_eq_ok.2 ⟨hband, rfl⟩
      rw [if_pos rfl]
      cases hmix : seen.any (caseDiffers c) with
      | true =>
        rw [hmix, if_pos rfl] at htrack
        have hrule (rs : List Reply) : checkChar c (s.withReplies rs) = .error .mixedCase :=
          checkChar_of_trackCase_error hchar htrack
        exact .andThen_failed (realises_rule_error p rfl (fun _ => rfl) hfree (by decide) hrule s) _
      | false =>
        rw [hmix, if_neg Bool.false_ne_true] at htrack
        have hrest := ih (s := s.setCase (caseOf (seen ++ [c]))) hfree ((mixed_concat hseen c).trans hmix) rfl
        rw [List.append_assoc] at hrest
        exact .andThen (realises_cmCase p hfree hband htrack) hrest

theorem realises_cmCases (text : Str) (hfree : s.err = .noError) (hcase : s.caseSeen = .none) :
    Realises (cmds p (Pseudo.expand (.cmCases text))) s (scan p [] text) (s.setCase (caseOf text)) :=
  realises_cmCases_after (seen := []) p text hfree rfl hcase

/-! ## The checksum -/

theorem forM_ok {α : Type} (xs : List α) : forM xs (fun _ => (.ok () : Except HostError Unit)) = .ok () := by
  induction xs with
  | nil => rfl
  | cons _ _ ih => exact ih

/-- The HRP's expansion is folded; none of its commands fails on the band (42_checksum.md R74, R79, R80). -/
theorem realises_ckHrp {hrp : Str} (hfree : s.err = .noError) (hchk : s.chk = chkInit)
    (hband : hrp.all inBand = true) :
    Realises (cmds p (Pseudo.expand (.ckHrp hrp))) s (.ok ()) (s.setChk (polymod (hrpExpand hrp))) := by
  have hin (c : Byte) (hc : c ∈ hrp) : inBand c = true := List.all_eq_true.1 hband c hc
  have hhigh {u : State} (hu : u.err = .noError) := realises_folds (command := .ckHrph) p
    (fun c hc t ht => realises_cmd p rfl (fun rs => exec_ckHrph (s := t.withReplies rs) ht (hin c hc)) ht) hu
  have hlow {u : State} (hu : u.err = .noError) := realises_folds (command := .ckHrpl) p
    (fun c hc t ht => realises_cmd p rfl (fun rs => exec_ckHrpl (s := t.withReplies rs) ht (hin c hc)) ht) hu
  have hzero {u : State} (hu : u.err = .noError) :
      Realises (cmd p (.ckStep 0)) u (.ok ()) (u.setChk (stepChk u.chk 0)) :=
    realises_cmd p rfl (fun rs => exec_ckStep (s := u.withReplies rs) hu (by decide)) hu
  rw [forM_ok] at hhigh hlow
  rw [Pseudo.expand, List.append_assoc, cmds_append, List.singleton_append, cmds, hrpExpand, polymod, stepAll_append,
    stepAll_append, ← hchk]
  exact .andThen (hhigh hfree) (.andThen (hzero hfree) (hlow hfree))

theorem forM_check_not_any {α : Type} (bad : α → Bool) (e : HostError) (xs : List α) :
    (forM xs fun x => check (!bad x) e) = check (!xs.any bad) e := by
  induction xs with
  | nil => rfl
  | cons x xs ih =>
    rw [List.forM_cons, check_not_bind, ih, List.any_cons]
    cases bad x <;> rfl

/-- The data are folded, or the first value above 31 is refused (42_checksum.md R78). -/
theorem realises_ckData {vs : List Symbol} (data : List Byte) (hfree : s.err = .noError)
    (hchk : s.chk = polymod vs) :
    Realises (cmds p (Pseudo.expand (.ckData data))) s
      (check (!data.any fun v => decide (31 < v.toNat)) .symbolRange)
      (s.setChk (polymod (vs ++ toSymbols data))) := by
  rw [← forM_check_not_any, polymod, stepAll_append, ← polymod, ← hchk]
  refine realises_folds p (fun v _ s hfree => ?_) hfree
  by_cases hv : 31 < v.toNat
  · rw [decide_eq_true hv]
    have hrule (rs : List Reply) : foldSymbol v (s.withReplies rs) = .error .symRange :=
      bind_of_error (symOperand_eq_error.2 ⟨hv, rfl⟩) _
    exact realises_rule_error p rfl (fun _ => rfl) hfree (by decide) hrule _
  · rw [decide_eq_false hv]
    exact realises_cmd p rfl (fun rs => exec_ckStep (s := s.withReplies rs) hfree (Nat.not_lt.1 hv)) hfree

theorem realises_ckFin {hrp : Str} {data : List Symbol} (hfree : s.err = .noError)
    (hchk : s.chk = polymod (hrpExpand hrp ++ data)) :
    Realises (cmd p .ckFin) s (.ok ()) (s.setCkres (createChecksum hrp data)) := by
  rw [createChecksum, polymod, stepAll_append, ← polymod, ← hchk]
  exact realises_cmd p rfl (fun rs => exec_ckFin (s := s.withReplies rs) hfree) hfree

/-- `CK.VER` passes on the final constant and otherwise ends the procedure (42_checksum.md R82). -/
theorem realises_ckVer (hfree : s.err = .noError) :
    Realises (cmd p .ckVer) s (check (decide (s.chk = finalConst)) .checksumMismatch)
      ((s.setChk finalConst).setCkok true) := by
  by_cases hchk : s.chk = finalConst
  · have hpass := realises_cmd (t := s.setCkok true) p rfl
      (fun rs => exec_ckVer_pass (s := s.withReplies rs) hfree hchk) hfree
    rw [decide_eq_true hchk, ← hchk]
    exact hpass
  · rw [decide_eq_false hchk]
    exact realises_cmd_raised p rfl (t := (s.setCkok false).capture .checksum (encode .ckVer))
      (fun rs => exec_ckVer_fail (s := s.withReplies rs) hfree hchk) nofun _

/-! ## Characters and symbols through the queue -/

theorem enqueue_dropHead (hempty : s.oq = []) (x : Byte) : (s.enqueue [x]).dropHead = s := by
  have hqueue : ((s.enqueue [x]).dropHead).oq = s.oq := by
    rw [hempty]
    exact congrArg (fun q => (q ++ [x]).tail) hempty
  exact congrArg (fun q => { s with oq := q }) hqueue

/-- A command that pushes one entry on the empty queue, and the pop of it. -/
theorem realises_pushPop {i : Instr} {x : Byte} (hi : i.wellFormed = true) (hfree : s.err = .noError)
    (hempty : s.oq = [])
    (hexec : ∀ rs, exec i (s.withReplies rs) = .next ((s.withReplies rs).enqueue [x])) :
    Realises ((cmd p i).andThen fun _ => pop) s (.ok x) s := by
  have hpop := realises_pop (s := s.enqueue [x]) (congrArg (· ++ [x]) hempty)
  rw [enqueue_dropHead hempty] at hpop
  exact .andThen (realises_cmd (t := s.enqueue [x]) p hi hexec hfree) hpop

/-- The character of a symbol in the case asked for (41_charset.md R67, R68). -/
def charIn (up : Bool) (v : Symbol) : Byte := if up then upper (charOf v) else charOf v

/-- The command that pushes it (R99). -/
def charCommand (up : Bool) (v : Byte) : Instr := if up then .cmEncu v else .cmEnc v

theorem exec_charCommand (up : Bool) {v : Byte} (hv : v.toNat ≤ 31) (hfree : s.err = .noError)
    (hroom : s.oq.length + 1 ≤ s.oqDepth) :
    exec (charCommand up v) s = .next (s.enqueue [charIn up (v.setWidth 5)]) := by
  cases up with
  | false => exact runRule_of_ok hfree _ (encodeSymbol_eq_ok.2 ⟨hv, hroom, rfl⟩)
  | true => exact runRule_of_ok hfree _ (encodeSymbol_eq_ok.2 ⟨hv, hroom, rfl⟩)

theorem charCommand_wellFormed (up : Bool) (v : Byte) : (charCommand up v).wellFormed = true := by
  cases up <;> rfl

theorem oq_room (hempty : s.oq = []) (hroom : 1 ≤ s.oqDepth) : s.oq.length + 1 ≤ s.oqDepth := by
  rw [hempty]
  exact hroom

/-- The host gets the characters of its symbols (R99). -/
theorem realises_encodeChars (up : Bool) {symbols : List Byte} (hsym : ∀ v ∈ symbols, v.toNat ≤ 31)
    (hfree : s.err = .noError) (hempty : s.oq = []) (hroom : 1 ≤ s.oqDepth) :
    Realises (popEach p (symbols.map (charCommand up))) s (.ok ((toSymbols symbols).map (charIn up))) s := by
  have hpop := realises_popEach (s := s) p (command := charCommand up)
    (out := fun v => pure (charIn up (v.setWidth 5))) fun v hv =>
      realises_pushPop p (charCommand_wellFormed up v) hfree hempty fun rs =>
        exec_charCommand (s := s.withReplies rs) up (hsym v hv) hfree (oq_room hempty hroom)
  rw [List.mapM_pure] at hpop
  rw [toSymbols, List.map_map]
  exact hpop

/-- What the host gets for a data character (R101): its symbol as a byte. -/
def symbolByte (c : Byte) : Except HostError Byte :=
  match symOf c with
  | some v => .ok (v.setWidth 8)
  | none => .error .dataInvalidChar

theorem mapM_symbolByte (rest : Str) : rest.mapM symbolByte = ofSymbols <$> symbolsOf rest := by
  induction rest with
  | nil => rfl
  | cons c rest ih =>
    rw [List.mapM_cons, ih, symbolsOf, symbolByte]
    cases symOf c with
    | none => rfl
    | some v => cases symbolsOf rest <;> rfl

/-- The host gets the symbols of a checked string's data characters, or the alphabet's error (R101). -/
theorem realises_decodeChars {rest : Str} (hband : ∀ c ∈ rest, inBand c = true)
    (hcase : ∀ c ∈ rest, trackCase s.caseSeen c = .ok s.caseSeen) (hfree : s.err = .noError) (hempty : s.oq = [])
    (hroom : 1 ≤ s.oqDepth) :
    Realises (popEach p (Pseudo.expand (.cmDecs rest))) s (ofSymbols <$> symbolsOf rest) s := by
  rw [← mapM_symbolByte]
  refine realises_popEach p fun c hc => ?_
  rw [symbolByte]
  cases hsym : symOf c with
  | none =>
    have hrule (rs : List Reply) : decodeChar c (s.withReplies rs) = .error .charset :=
      decodeChar_of_dataSymbol_error (charOperand_eq_ok.2 ⟨hband c hc, rfl⟩) (hcase c hc)
        (dataSymbol_eq_error.2 ⟨hsym, rfl⟩)
    exact .andThen_failed (realises_rule_error p rfl (fun _ => rfl) hfree (by decide) hrule s) _
  | some v =>
    have hrule (rs : List Reply) :
        decodeChar c (s.withReplies rs) = .ok ((s.withReplies rs).enqueue [v.setWidth 8]) :=
      decodeChar_eq_ok.2 ⟨hband c hc, _, hcase c hc, v, hsym, oq_room hempty hroom, rfl⟩
    exact realises_pushPop p rfl hfree hempty fun rs =>
      runRule_of_ok (s := s.withReplies rs) hfree (.cmDec c) (hrule rs)

end

/-! ## Encode (R99) -/

theorem map_charIn (hrp : Str) (data : List Symbol) :
    (addressSymbols hrp data).map (charIn (hrp.any isUpperLetter)) = addressBody hrp data := by
  rw [addressBody, ← addressSymbols]
  cases hrp.any isUpperLetter with
  | false => rfl
  | true => simp [charIn]

theorem statusWord_case (s : State) : (statusWord s).extractLsb' 12 2 = s.caseSeen.code := by
  obtain ⟨-, -, -, -, hcase, -⟩ := statusWord_fields s
  exact hcase

theorem caseOf_code (hrp : Str) : ((caseOf hrp).code == 2) = hrp.any isUpperLetter := by
  rw [caseOf]
  cases hrp.any isUpperLetter <;> cases hrp.any isLowerLetter <;> rfl

theorem toSymbols_ofSymbols (vs : List Symbol) : toSymbols (ofSymbols vs) = vs := by
  rw [toSymbols, ofSymbols, List.map_map]
  refine (List.map_congr_left fun v _ => ?_).trans (List.map_id vs)
  exact (BitVec.setWidth_setWidth_of_le _ (by decide)).trans (BitVec.setWidth_eq v)

theorem toSymbols_append_ofSymbols (data : List Byte) (vs : List Symbol) :
    toSymbols (data ++ ofSymbols vs) = toSymbols data ++ vs :=
  List.map_append.trans (congrArg _ (toSymbols_ofSymbols vs))

theorem ofSymbols_le {vs : List Symbol} : ∀ v ∈ ofSymbols vs, v.toNat ≤ 31 := by
  intro v hv
  obtain ⟨w, -, rfl⟩ := List.mem_map.1 hv
  rw [BitVec.toNat_setWidth_of_le (by decide)]
  exact Nat.le_of_lt_succ w.isLt

/-- The block after the host's case check of a string. -/
def afterScan (text : Str) (s : State) : State := s.resetBlock.setCase (caseOf text)

theorem toNat_le_of_check_symbols {data : List Byte} {u : Unit}
    (h : check (!data.any fun v => decide (31 < v.toNat)) .symbolRange = .ok u) : ∀ v ∈ data, v.toNat ≤ 31 := by
  simpa using check_eq_ok.1 h

/-- The block after a successful encoding. -/
def afterEncode (hrp : Str) (data : List Byte) (s : State) : State :=
  ((afterScan hrp s).setChk (polymod (hrpExpand hrp ++ toSymbols data))).setCkres
    (createChecksum hrp (toSymbols data))

/-- R99, from any block with room for one entry. -/
theorem realises_hostEncode (hrp : Str) (data : List Byte) {s : State} (hroom : 1 ≤ s.oqDepth) :
    Realises (hostEncode hrp data) s (encodeString hrp data) (afterEncode hrp data s) := by
  rw [encodeString_eq_checks]
  refine .bind (.require _ _ s) fun _ _ => .andThen (realises_sysRst .encode) ?_
  refine .bind (realises_cmCases .encode hrp rfl rfl) fun _ hscan => ?_
  refine .bind (.require _ _ (afterScan hrp s)) fun _ _ => .andThen (realises_readStatus _) ?_
  have hup : ((statusWord (afterScan hrp s)).extractLsb' 12 2 == 2) = hrp.any isUpperLetter :=
    (congrArg (· == 2) (statusWord_case _)).trans (caseOf_code hrp)
  rw [hup]
  refine .andThen (realises_ckHrp .encode rfl rfl (scan_eq_ok.1 hscan).1) ?_
  refine .bind (realises_ckData .encode data rfl rfl) fun _ hdata => ?_
  refine .andThen (realises_ckFin .encode rfl rfl) (.andThen (realises_readCkres _) ?_)
  have hbody := realises_encodeChars .encode (s := afterEncode hrp data s) (hrp.any isUpperLetter)
    (symbols := data ++ ofSymbols (checksumSymbols (createChecksum hrp (toSymbols data))))
    (List.forall_mem_append.2 ⟨toNat_le_of_check_symbols hdata, ofSymbols_le⟩) rfl rfl hroom
  rw [toSymbols_append_ofSymbols, ← addressSymbols, map_charIn] at hbody
  exact .andThen hbody (.done _ _)

/-- Settles O51: the invariant gives the queue room for the one entry that `host_encode` keeps in it. -/
theorem hostEncodeOnTheBlockIsEncode : Obligations.HostEncodeOnTheBlockIsEncode := by
  intro s hrp data ⟨⟨hdepth, _⟩, _⟩
  exact (realises_hostEncode hrp data (Nat.le_trans (by decide) hdepth)).fst_eq

/-! ## Decode (R101) -/

theorem decodeParts_eq_checks (hrp rest : Str) :
    decodeParts hrp rest =
      (ofSymbols <$> symbolsOf rest) >>= fun data =>
      check (decide (polymod (hrpExpand hrp ++ toSymbols data) = finalConst)) .checksumMismatch >>= fun _ =>
      .ok (hrp, data.take (data.length - Config.checksumLen)) := by
  rw [decodeParts]
  cases symbolsOf rest with
  | error e => rfl
  | ok syms =>
    have htake : ofSymbols (syms.take (syms.length - Config.checksumLen)) =
        (ofSymbols syms).take ((ofSymbols syms).length - Config.checksumLen) := by
      simp [ofSymbols]
    show ite _ _ _ = (check (decide (polymod (hrpExpand hrp ++ toSymbols (ofSymbols syms)) = finalConst)) _ >>= _)
    rw [toSymbols_ofSymbols, htake]
    by_cases hchk : polymod (hrpExpand hrp ++ syms) = finalConst
    · rw [if_neg (not_not.2 hchk), decide_eq_true hchk]
      rfl
    · rw [if_pos hchk, decide_eq_false hchk]
      rfl

/-- The block after a successful decoding. -/
def afterDecode (text : Str) (s : State) : State := ((afterScan text s).setChk finalConst).setCkok true

/-- The part of R101 after the split, on a block that has checked a string with these parts. -/
theorem realises_hostDecodeParts {text hrp rest : Str} {s : State} (hroom : 1 ≤ s.oqDepth)
    (hband : text.all inBand = true) (hcase : mixed text = false) (hhrp : hrp ⊆ text) (hrest : rest ⊆ text) :
    Realises (hostDecodeParts hrp rest) (afterScan text s) (decodeParts hrp rest) (afterDecode text s) := by
  have hin (c : Byte) (hc : c ∈ text) : inBand c = true := List.all_eq_true.1 hband c hc
  rw [decodeParts_eq_checks]
  refine .bind (realises_decodeChars .decode (fun c hc => hin c (hrest hc))
    (fun c hc => trackCase_of_mem hcase (hrest hc)) rfl rfl hroom) fun data hdata => ?_
  refine .andThen (realises_ckHrp .decode rfl rfl (List.all_eq_true.2 fun c hc => hin c (hhrp hc))) ?_
  have hcks := realises_ckData .decode data (s := (afterScan text s).setChk (polymod (hrpExpand hrp))) rfl rfl
  have hsym : ∀ v ∈ data, v.toNat ≤ 31 := by
    cases hsyms : symbolsOf rest with
    | error e => rw [hsyms] at hdata; exact nomatch hdata
    | ok syms => rw [hsyms] at hdata; exact Except.ok.inj hdata ▸ ofSymbols_le
  rw [check_eq_ok.2 (by simpa using hsym)] at hcks
  exact .andThen hcks (.bind (realises_ckVer .decode rfl) fun _ _ => .done _ _)

/-- R101, from any block with room for one entry. -/
theorem realises_hostDecode (text : Str) {s : State} (hroom : 1 ≤ s.oqDepth) :
    Realises (hostDecode text) s (decodeString text) (afterDecode text s) := by
  rw [decodeString_eq_checks]
  refine .bind (.require _ _ s) fun _ _ => .bind (.require _ _ s) fun _ _ => ?_
  refine .andThen (realises_sysRst .decode) (.bind (realises_cmCases .decode text rfl rfl) fun _ hscan => ?_)
  obtain ⟨hband, hcase⟩ := scan_eq_ok.1 hscan
  rw [decodeSplit]
  cases lastIndexOf separator text with
  | none => exact .fail _ _ _
  | some q =>
    dsimp only
    split
    · exact .fail _ _ _
    · exact realises_hostDecodeParts hroom hband hcase (List.take_subset q text) (List.drop_subset (q + 1) text)

/-- Settles O52: the invariant gives the queue room for the one entry that `host_decode` keeps in it. -/
theorem hostDecodeOnTheBlockIsDecode : Obligations.HostDecodeOnTheBlockIsDecode := by
  intro s text ⟨⟨hdepth, _⟩, _⟩
  exact (realises_hostDecode text (Nat.le_trans (by decide) hdepth)).fst_eq

end Sys2Proof.Machine
end

section
/-! PROOFS. The host's conversion on the block, with a drain after each command (45_host_witness.md R107, R108),
realises `convert_bits`: each command's groups fit into the empty queue, and the drain empties it again. -/

namespace Sys2Proof.Machine

open Sys2Proof.Safety HostProc

/-! ## Draining the queue -/

/-- A queue of at most 31 entries is empty when `OQCNT` shows 0 (10_state.md R22). -/
theorem oqcnt_eq_zero_iff {s : State} (hlen : s.oq.length ≤ 31) :
    (statusWord s).extractLsb' 16 5 = 0 ↔ s.oq = [] := by
  obtain ⟨-, -, -, -, -, -, hcount, -⟩ := statusWord_fields s
  have hshown : ((statusWord s).extractLsb' 16 5).toNat = s.oq.length := toNat_of_eq_ofNat hcount (by omega)
  rw [← BitVec.toNat_inj, hshown]
  exact List.length_eq_zero_iff

theorem enqueue_cons_dropHead {s : State} (hempty : s.oq = []) (x : Byte) (xs : List Byte) :
    (s.enqueue (x :: xs)).dropHead = s.enqueue xs := by
  simp [State.enqueue, State.dropHead, hempty]

/-- A drain answers what was pushed on the empty queue and leaves it empty. -/
theorem realises_drain {s : State} (hempty : s.oq = []) (xs : List Byte) {fuel : Nat} (hlen : xs.length < fuel)
    (hfuel : fuel ≤ 32) : Realises (drain fuel) (s.enqueue xs) (.ok xs) s := by
  have hqueue (ys : List Byte) : (s.enqueue ys).oq = ys := congrArg (· ++ ys) hempty
  induction fuel generalizing xs with
  | zero => exact absurd hlen (Nat.not_lt_zero _)
  | succ fuel ih =>
    have hshown : (statusWord (s.enqueue xs)).extractLsb' 16 5 = 0 ↔ xs = [] := by
      rw [oqcnt_eq_zero_iff (by rw [hqueue]; omega), hqueue]
    refine .andThen (realises_readStatus _) ?_
    cases xs with
    | nil =>
      have hsame : s.enqueue [] = s := congrArg (fun q => { s with oq := q }) (List.append_nil s.oq)
      rw [if_pos (hshown.2 rfl), hsame]
      exact .done [] s
    | cons x xs =>
      have hpop := realises_pop (hqueue (x :: xs))
      rw [enqueue_cons_dropHead hempty] at hpop
      rw [if_neg (mt hshown.1 (List.cons_ne_nil x xs))]
      exact .andThen hpop (.andThen (ih xs (Nat.lt_of_succ_lt_succ hlen) (by omega)) (.done _ s))

/-- A command that pushes `xs` on the empty queue, the drain of them, and the commands after it. -/
theorem realises_drainEach_cons (p : Procedure) {i : Instr} {is : List Instr} {s t u : State} {xs : List Byte}
    {r : Except HostError (List Byte)} (hi : i.wellFormed = true)
    (hexec : ∀ rs, exec i (s.withReplies rs) = .next ((t.enqueue xs).withReplies rs)) (hfree : t.err = .noError)
    (hempty : t.oq = []) (hlen : xs.length ≤ 31) (hrest : Realises (drainEach p is) t r u) :
    Realises (drainEach p (i :: is)) s (r >>= fun ys => .ok (xs ++ ys)) u :=
  .andThen (realises_cmd p hi hexec hfree) <|
    .andThen (realises_drain hempty xs (Nat.lt_succ_of_le hlen) le_rfl) <|
      .bind hrest fun ys _ => .done (xs ++ ys) u

/-! ## A conversion -/

theorem finalGroups_length_le {s : State} {outs : List Byte} (h : finalGroups s = .ok outs) : outs.length ≤ 1 := by
  unfold finalGroups at h
  split at h
  · split at h
    · split at h
      · exact nomatch h
      · exact Except.ok.inj h ▸ le_rfl
    · exact Except.ok.inj h ▸ Nat.zero_le 1
  · split at h
    · exact nomatch h
    · split at h
      · exact nomatch h
      · exact Except.ok.inj h ▸ Nat.zero_le 1

theorem eight_le_oqDepth {s : State} (hs : Inv s) : 8 ≤ s.oqDepth := by
  obtain ⟨⟨hdepth, -⟩, -⟩ := hs
  exact hdepth

/-- No command completes more than 8 groups, so the queue holds them at every depth (43_converter.md R89). -/
theorem pushed_length_le {s : State} (hs : Inv s) (x : Byte) : (pushed x s).1.length ≤ 8 := by
  rw [pushed_length hs]
  obtain ⟨-, ⟨-, hfrom⟩, ⟨hto, -⟩, hbits, -⟩ := hs
  exact Nat.div_le_of_le_mul (by omega)

theorem mapError_map_append (r : Except ErrCode (List Byte)) (f : ErrCode → HostError) (xs : List Byte) :
    (r.map (xs ++ ·)).mapError f = r.mapError f >>= fun ys => .ok (xs ++ ys) := by
  cases r <;> rfl

/-- The drained outputs of the pushes and of the flush are what the reference gives from the block's buffer. -/
theorem realises_pushesAndFlush (p : Procedure) {s : State} (hs : Inv s) (hfree : s.err = .noError)
    (hempty : s.oq = []) (data : List Byte) :
    Realises (drainEach p (pushesAndFlush data)) s
      ((convertFrom s.fromW s.toW s.pad data s.acc.toNat s.bits).mapError (hostError p)) (s.setBuffer 0 0) := by
  induction data generalizing s with
  | nil =>
    rw [convertFrom, ← finalGroups_eq_convertFinish hs]
    cases houts : finalGroups s with
    | error e =>
      have he : e ≠ .noError := fun h => finalGroups_ne_noError s (h ▸ houts)
      have hrule (rs : List Reply) : flushGroups (s.withReplies rs) = .error e := bind_of_error houts _
      exact .andThen_failed (realises_rule_error p rfl (fun _ => rfl) hfree he hrule s) _
    | ok outs =>
      have hlen := finalGroups_length_le houts
      have hroom : s.oq.length + outs.length ≤ s.oqDepth := by
        have hdepth := eight_le_oqDepth hs
        rw [hempty, List.length_nil]
        omega
      have hflush := realises_drainEach_cons p (i := .cvFlush) (is := []) (t := s.setBuffer 0 0) rfl
        (fun rs => exec_cvFlush (s := s.withReplies rs) hfree houts hroom) hfree hempty (by omega) (.done [] _)
      exact List.append_nil outs ▸ hflush
  | cons x xs ih =>
    by_cases hx : x.toNat < 2 ^ s.fromW
    · have hlen := pushed_length_le hs x
      have ⟨_, _, ⟨hto, _⟩, _⟩ := hs
      have hinv : Inv (s.setBuffer (bufferAfter s.acc s.fromW x) (pushed x s).2) :=
        inv_setBuffer hs _ (pushed_bits_lt hto x)
      have hroom : s.oq.length + (s.bits + s.fromW) / s.toW ≤ s.oqDepth := by
        rw [hempty, ← pushed_length (x := x) hs, List.length_nil, Nat.zero_add]
        exact hlen.trans (eight_le_oqDepth hs)
      rw [convertFrom_cons_eq_pushed hs hx, mapError_map_append]
      exact realises_drainEach_cons p (t := s.setBuffer (bufferAfter s.acc s.fromW x) (pushed x s).2) rfl
        (fun rs => exec_cvPush (s := s.withReplies rs) hs hx hfree hroom) hfree hempty (by omega)
        (ih hinv hfree hempty)
    · have hbig : 2 ^ s.fromW ≤ x.toNat := Nat.not_lt.1 hx
      rw [convertFrom_cons_of_le hbig]
      exact .andThen_failed (realises_cmd_raised p rfl (t := s.capture .convData (encode (.cvPush x)))
        (fun rs => exec_cvPush_of_range (s := s.withReplies rs) hfree hbig) nofun s) _

/-- The block after a conversion. -/
def afterConvert (f t : Nat) (pad : Bool) (s : State) : State := (s.resetBlock.setConfig f t pad).setBuffer 0 0

/-- R107 and R108: the block's conversion from reset is `convert_bits`, its errors mapped by `hosterr`. -/
theorem realises_hostConvert (p : Procedure) {f t : Nat} {pad : Bool} {configuration : Pseudo}
    (hconf : configuration.expand = [if pad then .cvCfgp f t else .cvCfg f t]) (hf : widthOk f = true)
    (ht : widthOk t = true) {s : State} (hs : Inv s) (data : List Byte) :
    Realises (hostConvert p configuration data) s ((convertBits data f t pad).mapError (hostError p))
      (afterConvert f t pad s) := by
  have hwf : Instr.wellFormed (if pad then .cvCfgp f t else .cvCfg f t) = true := by
    cases pad <;> simp [Instr.wellFormed, hf, ht]
  have hinv : Inv (afterConvert f t pad s) := inv_configure (inv_resetBlock hs) hf ht pad
  have hcmd : Realises (cmds p configuration.expand) s.resetBlock (.ok ()) (afterConvert f t pad s) := by
    rw [hconf]
    exact .andThen (realises_cmd p hwf (t := afterConvert f t pad s)
      (fun rs => exec_configuration (s := s.resetBlock.withReplies rs) rfl f t pad) rfl) (.done () _)
  exact .andThen (realises_sysRst p) (.andThen hcmd (realises_pushesAndFlush p hinv rfl rfl data))

end Sys2Proof.Machine
end

section
/-! PROOFS. The witness layer (45_host_witness.md): construction, the network table read in both directions, the
round trip of an address, and the two procedures on the block. -/

namespace Sys2Proof.Machine

open Sys2Proof.Safety HostProc

/-! ## Construction (R106) -/

/-- Settles O59: the checks stand in this order; only the last one is written the other way round. -/
theorem witnessProgramConstruction : Obligations.WitnessProgramConstruction := by
  intro policy version program net
  simp only [WitnessProgram.new, checkProgram, gt_iff_lt, not_or, ne_eq]
  cases policy net version program.length <;> rfl

theorem checkProgram_eq_ok {policy : Policy} {w w' : WitnessProgram} :
    checkProgram policy w = .ok w' ↔
      (2 ≤ w.program.length ∧ w.program.length ≤ 40) ∧
      (w.version = 0 → w.program.length = 20 ∨ w.program.length = 32) ∧
      policy w.network w.version w.program.length = true ∧ w' = w := by
  rw [checkProgram]
  split
  next hlen => simp; omega
  next hlen =>
    split
    next hzero => simp; omega
    next hzero =>
      have hbounds : 2 ≤ w.program.length ∧ w.program.length ≤ 40 := by omega
      have hlengths : w.version = 0 → w.program.length = 20 ∨ w.program.length = 32 := by omega
      cases policy w.network w.version w.program.length with
      | false => simp
      | true => simpa [hbounds, eq_comm] using fun _ => hlengths

/-- `new` is the version's bound and then the checks of R108. -/
theorem new_eq_ok {policy : Policy} {version : Nat} {program : List Byte} {net : Network} {w : WitnessProgram} :
    WitnessProgram.new policy version program net = .ok w ↔
      version ≤ 16 ∧ checkProgram policy ⟨version, program, net⟩ = .ok w := by
  rw [WitnessProgram.new]
  split
  next hbig => simp [Nat.not_le.2 hbig]
  next hsmall => simp [Nat.not_lt.1 hsmall]

/-! ## The network table (R103, R104) -/

/-- Where no two elements share a key, a search by a key finds the element that has it. -/
theorem find?_of_nodup_keys {α β : Type} [BEq β] [LawfulBEq β] {key : α → β} {l : List α}
    (hl : (l.map key).Nodup) {a : α} (ha : a ∈ l) : (l.find? fun b => key b == key a) = some a := by
  cases hfind : l.find? fun b => key b == key a with
  | none => exact absurd (beq_self_eq_true (key a)) (List.find?_eq_none.1 hfind a ha)
  | some b =>
    have hkey : key b = key a := eq_of_beq (List.find?_some (p := fun b => key b == key a) hfind)
    exact congrArg some (List.inj_on_of_nodup_map hl (List.mem_of_find?_eq_some hfind) ha hkey)

theorem NetworkTable.hrpOf_of_mem {table : NetworkTable} (hvalid : table.Valid) {entry : Network × Str}
    (h : entry ∈ table.entries) : table.hrpOf entry.1 = some entry.2 := by
  obtain ⟨-, hkeys, -⟩ := hvalid
  exact congrArg (Option.map Prod.snd) (find?_of_nodup_keys hkeys h)

theorem NetworkTable.networkOf_of_mem {table : NetworkTable} (hvalid : table.Valid) {entry : Network × Str}
    (h : entry ∈ table.entries) : table.networkOf entry.2 = some entry.1 := by
  obtain ⟨-, -, hkeys⟩ := hvalid
  exact congrArg (Option.map Prod.fst) (find?_of_nodup_keys (key := fun e : Network × Str => e.2.map lower) hkeys h)

theorem tableHrpOk_eq_true {h : Str} :
    tableHrpOk h = true ↔ validHrp h = true ∧ h.map lower = h ∧ h.length ≤ 18 := by
  simp only [tableHrpOk, Bool.and_eq_true, beq_iff_eq, decide_eq_true_eq, and_assoc]

/-! ## Addresses as sequences of checks -/

/-- R107: the conversion of bytes never fails (R92), so an address is the encoding of version and groups. -/
theorem toAddress_of_groups {w : WitnessProgram} {groups : List Byte}
    (hgroups : convertBits w.program 8 5 true = .ok groups) {table : NetworkTable} {hrp : Str}
    (hhrp : table.hrpOf w.network = some hrp) :
    toAddress table w = encodeString hrp (versionSymbol w.version :: groups) := by
  rw [toAddress, hgroups, hhrp]

theorem toAddress_of_unnamed {w : WitnessProgram} {table : NetworkTable}
    (hhrp : table.hrpOf w.network = none) : toAddress table w = .error .internal := by
  obtain ⟨groups, hgroups, -⟩ := bytesToSymbolsNeverFails w.program
  rw [toAddress, hgroups, hhrp]

/-- R108 after the decoding, check by check. -/
theorem programOf_cons_eq_checks (policy : Policy) (net : Network) (v : Byte) (groups : List Byte) :
    programOf policy net (v :: groups) =
      check (decide (v.toNat ≤ 16)) .versionTooLarge >>= fun _ =>
      (convertBits groups 5 8 false).mapError (hostError .decode) >>= fun prog =>
      checkProgram policy ⟨v.toNat, prog, net⟩ := by
  rw [programOf, check_le_bind]
  cases convertBits groups 5 8 false <;> rfl

theorem fromAddress_of_decoded {text hrp : Str} {data : List Byte} (hdec : decodeString text = .ok (hrp, data))
    {table : NetworkTable} {net : Network} (hnet : table.networkOf hrp = some net) (policy : Policy) :
    fromAddress table policy text = programOf policy net data := by
  simp only [fromAddress, hdec, hnet]

/-! ## The round trip (R109) -/

/-- An HRP of the table and a program of at most 40 bytes leave room for a whole address (R104). -/
theorem exists_encodeString_of_program {hrp : Str} (hhrp : tableHrpOk hrp = true) {version : Nat}
    (hversion : version ≤ 16) {program groups : List Byte} (hlen : program.length ≤ 40)
    (hgroups : convertBits program 8 5 true = .ok groups) :
    ∃ s, encodeString hrp (versionSymbol version :: groups) = .ok s := by
  obtain ⟨hvalid, -, hshort⟩ := tableHrpOk_eq_true.1 hhrp
  obtain ⟨groups', hgroups', hcount, hsym, -⟩ := bytesToSymbolsNeverFails program
  obtain rfl : groups' = groups := Except.ok.inj (hgroups'.symm.trans hgroups)
  have hv : (versionSymbol version).toNat = version := versionSymbol_toNat (by omega)
  refine exists_encodeString_iff.2 ⟨hvalid, List.forall_mem_cons.2 ⟨by omega, fun v hmem => ?_⟩, ?_⟩
  · exact Nat.le_of_lt_succ (hsym v hmem)
  · rw [List.length_cons]
    omega

/-- Settles O60: the address fits, its string decodes to what was encoded (R102 item 1), the HRP leads back to its
network, and the groups convert back to the program (R93). -/
theorem addressOfAWitnessProgramRoundTrips : Obligations.AddressOfAWitnessProgramRoundTrips := by
  intro table policy version program net w htable hnet hnew
  obtain ⟨hversion, hcheck⟩ := new_eq_ok.1 hnew
  obtain ⟨⟨-, hlen⟩, -, -, rfl⟩ := checkProgram_eq_ok.1 hcheck
  obtain ⟨⟨net, hrp⟩, hmem, rfl⟩ := List.mem_map.1 hnet
  obtain ⟨groups, hgroups, -⟩ := bytesToSymbolsNeverFails program
  obtain ⟨s, hs⟩ := exists_encodeString_of_program (htable.1 _ hmem) hversion hlen hgroups
  have hdec : decodeString s = .ok (hrp, versionSymbol version :: groups) := decodeUndoesEncodeOfStrings _ _ _ hs
  have hv : (versionSymbol version).toNat = version := versionSymbol_toNat (by omega)
  refine ⟨s, (toAddress_of_groups hgroups (NetworkTable.hrpOf_of_mem htable hmem)).trans hs, ?_⟩
  rw [fromAddress_of_decoded hdec (NetworkTable.networkOf_of_mem htable hmem), programOf_cons_eq_checks, hv,
    decide_eq_true hversion, convertBits_symbols_of_bytes hgroups]
  exact hcheck

/-! ## The procedures on the block -/

theorem realises_hostResult {α : Type} (r : Except HostError α) (s : State) : Realises (hostResult r) s r s :=
  fun rs => ⟨rfl, fun _ _ => ⟨rs, rfl⟩⟩

/-- R107 on the block: the conversion and then `host_encode`, if the network has an HRP. -/
theorem hostToAddress_fst {s : State} (hs : Inv s) (table : NetworkTable) (w : WitnessProgram) :
    (hostToAddress table w s).1 = toAddress table w := by
  obtain ⟨groups, hgroups, -⟩ := bytesToSymbolsNeverFails w.program
  have hconvert := realises_hostConvert .encode (configuration := .cvB2s) (pad := true) rfl (by decide) (by decide)
    hs w.program
  rw [hgroups] at hconvert
  cases hhrp : table.hrpOf w.network with
  | none =>
    rw [toAddress_of_unnamed hhrp, hostToAddress, hhrp]
    exact (Realises.andThen hconvert (.fail _ _ s)).fst_eq
  | some hrp =>
    have hroom : 1 ≤ s.oqDepth := Nat.le_trans (by decide) (eight_le_oqDepth hs)
    have hencode := realises_hostEncode hrp (versionSymbol w.version :: groups) (s := afterConvert 8 5 true s) hroom
    rw [toAddress_of_groups hgroups hhrp, hostToAddress, hhrp]
    exact (Realises.andThen hconvert hencode).fst_eq

theorem realises_hostProgramOf (policy : Policy) (net : Network) {s : State} (hs : Inv s) (data : List Byte) :
    Realises (hostProgramOf policy net data) s (programOf policy net data) (afterConvert 5 8 false s) := by
  cases data with
  | nil => exact .fail _ _ _
  | cons v groups =>
    rw [programOf_cons_eq_checks]
    refine .bind (.require _ _ s) fun _ _ => .bind ?_ fun prog _ => realises_hostResult _ _
    exact realises_hostConvert .decode rfl (by decide) (by decide) hs groups

/-- R108 on the block: `host_decode`, and then the conversion, if the HRP is the table's. -/
theorem realises_hostFromAddress (table : NetworkTable) (policy : Policy) (text : Str) {s : State} (hs : Inv s) :
    Realises (hostFromAddress table policy text) s (fromAddress table policy text)
      (afterConvert 5 8 false (afterDecode text s)) := by
  have hdecode := realises_hostDecode text (Nat.le_trans (by decide) (eight_le_oqDepth hs))
  have hreset : Inv s.resetBlock := inv_resetBlock hs
  have hinv : Inv (afterDecode text s) := hreset
  rw [fromAddress]
  cases hdec : decodeString text with
  | error e => exact .andThen_failed (hdec ▸ hdecode) _
  | ok decoded =>
    refine .andThen (hdec ▸ hdecode) ?_
    dsimp only
    cases table.networkOf decoded.1 with
    | none => exact .fail _ _ _
    | some net => exact realises_hostProgramOf policy net hinv decoded.2

/-- Settles O53: both procedures realise their pure functions from every block of the invariant. -/
theorem hostWitnessLayerOnTheBlock : Obligations.HostWitnessLayerOnTheBlock :=
  fun _ table policy w text hs =>
    ⟨hostToAddress_fst hs table w, (realises_hostFromAddress table policy text hs).fst_eq⟩

end Sys2Proof.Machine
end

section
/-! PROOFS. Error capture, the lock and recovery (60_exceptions.md R110 to R115), from what a command and a step
can do. That the captured code is explained (R110) needs one thing more: which code each rule raises, and why. -/

namespace Sys2Proof.Machine

open Sys2Proof.Safety

/-! ## The lock and the recovery from it -/

/-- Under the lock a command keeps the record, or is one of the two that clear it (R112, R115). -/
theorem CommandEffect.keeps_or_clears_record {i : Instr} {s t : State} (heff : CommandEffect s i t)
    (hlock : s.err ≠ .noError) : SameError s t ∨ (t.err = .noError ∧ t.errinfo = 0) := by
  cases heff with
  | discarded | nop => exact .inl ⟨rfl, rfl⟩
  | sysRst | sysClrerr => exact .inr ⟨rfl, rfl⟩
  | _ => contradiction

/-- Settles O20: an access that runs no command keeps the record, unless it is the reset line. -/
theorem firstErrorIsNeverOverwritten : Obligations.FirstErrorIsNeverOverwritten := by
  intro s t hlock hstep
  cases step_effect hstep with
  | idle | answeredOnly | popped => exact .inl ⟨rfl, rfl⟩
  | reset => exact .inr ⟨rfl, rfl⟩
  | illegal _ _ hfree => exact absurd hfree hlock
  | command _ _ heff => exact heff.keeps_or_clears_record hlock

/-- Settles O25: of the effects of a command on an unlocked block only two are a capture. -/
theorem commandsCommitOrCapture : Obligations.CommandsCommitOrCapture := by
  intro i s hfree
  obtain ⟨t, hexec⟩ := exec_goes_on i s
  refine ⟨t, hexec, ?_⟩
  cases exec_effect hexec with
  | discarded hlock => exact absurd hfree hlock
  | raised _ he => exact .inr ⟨_, he, .inl rfl⟩
  | verifyFailed => exact .inr ⟨.checksum, nofun, .inr ⟨rfl, rfl, rfl⟩⟩
  | sysRst | sysClrerr => exact .inl rfl
  | _ => exact .inl hfree

theorem afterRead_replies (r : Register) (s : State) : (afterRead r s).replies = s.replies := by
  cases r <;> rfl

/-- Settles O26: a read makes no test of the lock, and the two recovery values decode to the commands that make
none. -/
theorem lockDiscardsEveryOtherCommand : Obligations.LockDiscardsEveryOtherCommand := by
  intro s hlock
  refine ⟨fun w => issue_of_locked hlock, issue_of_command (i := .sysRst) (by decide) s,
    issue_of_command (i := .sysClrerr) (by decide) s, fun off hoff halign => ?_,
    fun x xs hoq => congrArg List.tail hoq⟩
  rw [serve_read_window s hoff halign, State.logReply, afterRead_replies]

/-- Leaving the lock undoes the capture (R111, R114). -/
theorem clearError_capture {s : State} (herr : s.err = .noError) (hinfo : s.errinfo = 0) (e : ErrCode)
    (w : Word) : (s.capture e w).clearError = s := by
  rw [State.capture, State.clearError, ← herr, ← hinfo]

/-- Settles O27: a command that erred has only captured, as O25 says, and before it the record was clear. -/
theorem recoveryKeepsTheUnits : Obligations.RecoveryKeepsTheUnits := by
  intro i s t hs hfree hver hexec herr
  obtain ⟨-, -, -, -, -, hinfo⟩ := hs
  obtain ⟨u, hu, hcommit | ⟨e, -, rfl | ⟨rfl, -⟩⟩⟩ := commandsCommitOrCapture i s hfree
  · rw [Host.Outcome.next.inj (hexec.symm.trans hu)] at herr
    exact absurd hcommit herr
  · rw [Host.Outcome.next.inj (hexec.symm.trans hu)]
    exact congrArg Host.Outcome.next (clearError_capture hfree (hinfo hfree) e (encode i))
  · exact absurd rfl hver

/-! ## Why a rule raises its error

Two commands that run one rule have one cause (`causeSeen` on `CM.ENC` and `CM.ENCU`, on `CK.HRPH` and `CK.HRPL`),
so each lemma names the first of the two. -/

theorem bind_eq_error {α β : Type} {x : Except ErrCode α} {f : α → Except ErrCode β} {e : ErrCode} :
    (x >>= f) = .error e ↔ x = .error e ∨ ∃ a, x = .ok a ∧ f a = .error e := by
  cases x with
  | ok a => simp [bind, Except.bind]
  | error e' => simp [bind, Except.bind]

section

variable {s : State} {d : Byte} {e : ErrCode}

theorem symOperand_error_cause (h : symOperand d = .error e) : causeSeen s e (.ckStep d) = true := by
  obtain ⟨hd, rfl⟩ := symOperand_eq_error.1 h
  simp [causeSeen, hd]

theorem charOperand_error_cause (h : charOperand d = .error e) : causeSeen s e (.ckHrph d) = true := by
  obtain ⟨hd, rfl⟩ := charOperand_eq_error.1 h
  simp [causeSeen, hd]

theorem trackCase_eq_error_iff_mixesCase :
    trackCase s.caseSeen d = .error e ↔ mixesCase s d = true ∧ e = .mixedCase := by
  rw [trackCase_eq_error, mixesCase, decide_eq_true_iff]
  simp only [and_assoc]

theorem mixesCase_eq_false_of_ok {k : CaseSeen} (h : trackCase s.caseSeen d = .ok k) :
    mixesCase s d = false := by
  rw [Bool.eq_false_iff]
  intro hmix
  exact nomatch (trackCase_of_mixesCase hmix).symm.trans h

theorem foldSymbol_error_cause (h : foldSymbol d s = .error e) : causeSeen s e (.ckStep d) = true := by
  obtain hsym | ⟨_, _, hok⟩ := bind_eq_error.1 h
  · exact symOperand_error_cause hsym
  · exact nomatch hok

theorem foldHrp_error_cause {part : Byte → Symbol} (h : foldHrp part d s = .error e) :
    causeSeen s e (.ckHrph d) = true := by
  obtain hchar | ⟨_, _, hok⟩ := bind_eq_error.1 h
  · exact charOperand_error_cause hchar
  · exact nomatch hok

theorem encodeSymbol_error_cause {fold : Byte → Byte} (h : encodeSymbol fold d s = .error e) :
    causeSeen s e (.cmEnc d) = true := by
  obtain hsym | ⟨v, hsym, hpush⟩ := bind_eq_error.1 h
  · obtain ⟨hd, rfl⟩ := symOperand_eq_error.1 hsym
    simp [causeSeen, hd]
  · obtain ⟨hd, -⟩ := symOperand_eq_ok.1 hsym
    obtain ⟨-, rfl⟩ := State.push_eq_error.1 hpush
    simp [causeSeen, hd]

theorem checkChar_error_cause (h : checkChar d s = .error e) : causeSeen s e (.cmCase d) = true := by
  obtain hchar | ⟨c, hchar, hrest⟩ := bind_eq_error.1 h
  · obtain ⟨hband, rfl⟩ := charOperand_eq_error.1 hchar
    simp [causeSeen, hband]
  obtain ⟨hband, rfl⟩ := charOperand_eq_ok.1 hchar
  obtain hcase | ⟨_, _, hok⟩ := bind_eq_error.1 hrest
  · obtain ⟨hmix, rfl⟩ := trackCase_eq_error_iff_mixesCase.1 hcase
    simp [causeSeen, hband, hmix]
  · exact nomatch hok

theorem decodeChar_error_cause (h : decodeChar d s = .error e) : causeSeen s e (.cmDec d) = true := by
  obtain hchar | ⟨c, hchar, hrest⟩ := bind_eq_error.1 h
  · obtain ⟨hband, rfl⟩ := charOperand_eq_error.1 hchar
    simp [causeSeen, hband]
  obtain ⟨hband, rfl⟩ := charOperand_eq_ok.1 hchar
  obtain hcase | ⟨k, hcase, hmap⟩ := bind_eq_error.1 hrest
  · obtain ⟨hmix, rfl⟩ := trackCase_eq_error_iff_mixesCase.1 hcase
    simp [causeSeen, hband, hmix]
  have hsame : mixesCase s c = false := mixesCase_eq_false_of_ok hcase
  obtain hsym | ⟨v, hsym, hstore⟩ := bind_eq_error.1 hmap
  · obtain ⟨hnone, rfl⟩ := dataSymbol_eq_error.1 hsym
    simp [causeSeen, hband, hsame, hnone]
  obtain hpush | ⟨_, _, hok⟩ := bind_eq_error.1 hstore
  · obtain ⟨-, rfl⟩ := State.push_eq_error.1 hpush
    simp [causeSeen, hband, hsame, dataSymbol_eq_ok.1 hsym]
  · exact nomatch hok

theorem pushGroup_error_cause (h : pushGroup d s = .error e) : causeSeen s e (.cvPush d) = true := by
  obtain hvalue | ⟨x, hvalue, hstore⟩ := bind_eq_error.1 h
  · obtain ⟨hd, rfl⟩ := valueOperand_eq_error.1 hvalue
    have hlarge : 2 ^ s.fromW ≤ d.toNat := Nat.not_lt.1 (mt shiftRight_eq_zero_iff.2 hd)
    simp [causeSeen, hlarge]
  obtain ⟨hd, -⟩ := valueOperand_eq_ok.1 hvalue
  obtain hpush | ⟨_, _, hok⟩ := bind_eq_error.1 hstore
  · obtain ⟨-, rfl⟩ := State.push_eq_error.1 hpush
    simp [causeSeen, shiftRight_eq_zero_iff.1 hd]
  · exact nomatch hok

end

/-! ## Why a flush raises its error -/

theorem finalGroups_error_cause {s : State} {e : ErrCode} (hs : Inv s) (h : finalGroups s = .error e) :
    causeSeen s e .cvFlush = true := by
  obtain ⟨-, -, ⟨-, hto⟩, hbits, -⟩ := hs
  unfold finalGroups at h
  split at h
  next hpad =>
    split at h
    next hpos =>
      split at h
      next hlong =>
        obtain rfl := Except.error.inj h
        simp [causeSeen, hpad, hpos, hlong]
      next => exact nomatch h
    next => exact nomatch h
  next hpad =>
    split at h
    next hlong =>
      obtain rfl := Except.error.inj h
      simp [causeSeen, hpad, hlong]
    next hshort =>
      split at h
      next hleft =>
        obtain rfl := Except.error.inj h
        have hne : s.acc.toNat % 2 ^ s.bits ≠ 0 := by
          rw [← and_mask_toNat s.acc (by omega)]
          exact fun hz => hleft (BitVec.eq_of_toNat_eq hz)
        simp [causeSeen, hpad, Nat.not_le.1 hshort, hne]
      next => exact nomatch h

/-- A flush has an output only when it pads buffered bits (43_converter.md R90). -/
theorem finalGroups_eq_ok_nil_or {s : State} {outs : List Byte} (h : finalGroups s = .ok outs) :
    outs = [] ∨ (s.pad = true ∧ 0 < s.bits) := by
  unfold finalGroups at h
  split at h
  next hpad =>
    by_cases hpos : 0 < s.bits
    · exact .inr ⟨hpad, hpos⟩
    · rw [if_neg hpos] at h
      exact .inl (Except.ok.inj h).symm
  next =>
    split at h
    next => exact nomatch h
    next =>
      split at h
      next => exact nomatch h
      next => exact .inl (Except.ok.inj h).symm

theorem flushGroups_error_cause {s : State} {e : ErrCode} (hs : Inv s) (h : flushGroups s = .error e) :
    causeSeen s e .cvFlush = true := by
  obtain hfinal | ⟨outs, houts, hstore⟩ := bind_eq_error.1 h
  · exact finalGroups_error_cause hs hfinal
  obtain hpush | ⟨_, _, hok⟩ := bind_eq_error.1 hstore
  · obtain ⟨hfull, rfl⟩ := State.push_eq_error.1 hpush
    obtain ⟨-, -, -, -, hqueue, -⟩ := hs
    obtain rfl | ⟨hpad, hpos⟩ := finalGroups_eq_ok_nil_or houts
    · exact absurd hqueue (Nat.not_le.2 hfull)
    · simp [causeSeen, hpad, hpos]
  · exact nomatch hok

/-! ## A rule that commits leaves the record alone -/

section

variable {s t : State} {d : Byte}

theorem encodeSymbol_keeps_record {fold : Byte → Byte} (h : encodeSymbol fold d s = .ok t) : SameError s t := by
  obtain ⟨-, -, rfl⟩ := encodeSymbol_eq_ok.1 h
  exact ⟨rfl, rfl⟩

theorem checkChar_keeps_record (h : checkChar d s = .ok t) : SameError s t := by
  obtain ⟨-, _, -, rfl⟩ := checkChar_eq_ok.1 h
  exact ⟨rfl, rfl⟩

theorem decodeChar_keeps_record (h : decodeChar d s = .ok t) : SameError s t := by
  obtain ⟨-, _, -, _, -, -, rfl⟩ := decodeChar_eq_ok.1 h
  exact ⟨rfl, rfl⟩

theorem foldSymbol_keeps_record (h : foldSymbol d s = .ok t) : SameError s t := by
  obtain ⟨-, rfl⟩ := foldSymbol_eq_ok.1 h
  exact ⟨rfl, rfl⟩

theorem foldHrp_keeps_record {part : Byte → Symbol} (h : foldHrp part d s = .ok t) : SameError s t := by
  obtain ⟨-, rfl⟩ := foldHrp_eq_ok.1 h
  exact ⟨rfl, rfl⟩

theorem pushGroup_keeps_record (h : pushGroup d s = .ok t) : SameError s t := by
  obtain ⟨-, -, rfl⟩ := pushGroup_eq_ok.1 h
  exact ⟨rfl, rfl⟩

theorem flushGroups_keeps_record (h : flushGroups s = .ok t) : SameError s t := by
  obtain ⟨_, -, -, rfl⟩ := flushGroups_eq_ok.1 h
  exact ⟨rfl, rfl⟩

end

/-! ## Why a command captures its error -/

section

variable {s : State} {i : Instr} {e : ErrCode} (hfree : s.err = .noError) (he : e ≠ .noError)

include hfree he

/-- When a rule's commits leave the record alone, only its own error is captured. -/
theorem rule_error_of_raises {rule : State → Except ErrCode State} (hok : ∀ u, rule s = .ok u → SameError s u)
    (h : runRule i rule s = .next (s.capture e (encode i))) : rule s = .error e := by
  obtain ⟨hlock, -⟩ | ⟨-, hcommit⟩ | ⟨-, e', herror, hcapture⟩ := runRule_eq_next.1 h
  · exact absurd hfree hlock
  · obtain ⟨hkept, -⟩ := hok _ hcommit
    exact absurd (hkept.trans hfree) he
  · have hcode : e = e' := congrArg State.err hcapture
    exact hcode ▸ herror

/-- A rule that always commits captures nothing. -/
theorem not_raises_of_ok (rule : State → Except ErrCode State) {u : State} (hr : rule s = .ok u)
    (hu : SameError s u) : runRule i rule s ≠ .next (s.capture e (encode i)) := by
  intro h
  have herror := rule_error_of_raises hfree he (fun v hv => Except.ok.inj (hr.symm.trans hv) ▸ hu) h
  exact nomatch hr.symm.trans herror

/-- A command that captures an error shows the cause that R110 gives for it. -/
theorem causeSeen_of_raises (hs : Inv s) (h : Raises i s e) : causeSeen s e i = true := by
  cases i with
  | nop => exact absurd h (not_raises_of_ok hfree he .ok rfl ⟨rfl, rfl⟩)
  | sysRst => exact absurd (congrArg State.err (Host.Outcome.next.inj h)).symm he
  | sysClrerr => exact absurd (congrArg State.err (Host.Outcome.next.inj h)).symm he
  | cmClr => exact absurd h (not_raises_of_ok hfree he clearCase rfl ⟨rfl, rfl⟩)
  | cmEnc v =>
    exact encodeSymbol_error_cause (rule_error_of_raises hfree he (fun _ => encodeSymbol_keeps_record) h)
  | cmEncu v =>
    exact encodeSymbol_error_cause (rule_error_of_raises hfree he (fun _ => encodeSymbol_keeps_record) h)
  | cmDec c =>
    exact decodeChar_error_cause (rule_error_of_raises hfree he (fun _ => decodeChar_keeps_record) h)
  | cmCase c =>
    exact checkChar_error_cause (rule_error_of_raises hfree he (fun _ => checkChar_keeps_record) h)
  | ckInit => exact absurd h (not_raises_of_ok hfree he initChecksum rfl ⟨rfl, rfl⟩)
  | ckStep v =>
    exact foldSymbol_error_cause (rule_error_of_raises hfree he (fun _ => foldSymbol_keeps_record) h)
  | ckHrph c =>
    exact foldHrp_error_cause (rule_error_of_raises hfree he (fun _ => foldHrp_keeps_record) h)
  | ckHrpl c =>
    exact foldHrp_error_cause (rule_error_of_raises hfree he (fun _ => foldHrp_keeps_record) h)
  | ckFin => exact absurd h (not_raises_of_ok hfree he finishChecksum rfl ⟨rfl, rfl⟩)
  | ckVer =>
    by_cases hchk : s.chk = finalConst
    · have hcommit := (exec_ckVer_pass hfree hchk).symm.trans h
      exact absurd ((congrArg State.err (Host.Outcome.next.inj hcommit)).symm.trans hfree) he
    · have hcapture := Host.Outcome.next.inj ((exec_ckVer_fail hfree hchk).symm.trans h)
      have hcode : .checksum = e := congrArg State.err hcapture
      have hckok : false = s.ckok := congrArg State.ckok hcapture
      subst hcode
      simpa [causeSeen, finalConst, ← hckok] using hchk
  | cvCfg f t => exact absurd h (not_raises_of_ok hfree he (configure f t false) rfl ⟨rfl, rfl⟩)
  | cvCfgp f t => exact absurd h (not_raises_of_ok hfree he (configure f t true) rfl ⟨rfl, rfl⟩)
  | cvPush x =>
    exact pushGroup_error_cause (rule_error_of_raises hfree he (fun _ => pushGroup_keeps_record) h)
  | cvFlush =>
    exact flushGroups_error_cause hs (rule_error_of_raises hfree he (fun _ => flushGroups_keeps_record) h)

end

/-! ## Every step keeps the record explained -/

theorem causeSeen_capture (s : State) (e e' : ErrCode) (w : Word) (i : Instr) :
    causeSeen (s.capture e' w) e i = causeSeen s e i := rfl

theorem errorExplained_setPending (s : State) (es : List BusEvent) :
    errorExplained (s.setPending es) = errorExplained s := rfl

theorem errorExplained_logReply (s : State) (r : Reply) : errorExplained (s.logReply r) = errorExplained s := rfl

/-- While the block is unlocked the record is clear (10_state.md R23). -/
theorem errorExplained_of_unlocked {s : State} (hs : Inv s) (hfree : s.err = .noError) :
    errorExplained s = true := by
  obtain ⟨-, -, -, -, -, hinfo⟩ := hs
  simp [errorExplained, hfree, hinfo hfree]

theorem errorExplained_of_illegal {s : State} {w : Word} {why : Illegal} (herr : s.err = .illegal)
    (hinfo : s.errinfo = w) (hdec : decode w = .illegal why) : errorExplained s = true := by
  simp [errorExplained, herr, hinfo, hdec]

theorem errorExplained_of_command {s : State} {i : Instr} (hi : i.wellFormed = true)
    (hinfo : s.errinfo = encode i) (hcause : causeSeen s s.err i = true) (hlock : s.err ≠ .noError) :
    errorExplained s = true := by
  rw [errorExplained, if_neg hlock, hinfo, decodeInvertsEncode i hi]
  exact hcause

theorem exec_keeps_errorExplained {i : Instr} {s t : State} (hi : i.wellFormed = true) (hs : Inv s)
    (hexp : errorExplained s = true) (h : exec i s = .next t) : errorExplained t = true := by
  have heff : CommandEffect s i t := exec_effect h
  have ht : Inv t := heff.inv hi hs
  cases heff with
  | discarded | nop => exact hexp
  | raised hfree he =>
    refine errorExplained_of_command hi rfl ?_ he
    rw [causeSeen_capture]
    exact causeSeen_of_raises hfree he hs h
  | verifyFailed _ hchk =>
    refine errorExplained_of_command hi rfl ?_ nofun
    exact decide_eq_true hchk
  | sysRst | sysClrerr => exact errorExplained_of_unlocked ht rfl
  | _ => exact errorExplained_of_unlocked ht ‹s.err = .noError›

/-- Settles O19: a step leaves the record and the units as they were, clears the record, captures an illegal value,
or runs a command. -/
theorem everyStepKeepsTheErrorExplained : Obligations.EveryStepKeepsTheErrorExplained := by
  intro s t hs hexp hstep
  cases step_effect hstep with
  | idle | answeredOnly | popped => exact hexp
  | reset => exact errorExplained_of_unlocked (everyStepKeepsTheInvariant _ _ hs hstep) rfl
  | illegal _ hdec => exact errorExplained_of_illegal rfl rfl hdec
  | @command _ _ rest _ hpend hdec =>
    obtain ⟨u, hexec, hreply⟩ := answered_eq_next.1 ((step_of_command hdec hpend).symm.trans hstep)
    rw [hreply, errorExplained_logReply]
    rw [← errorExplained_setPending s rest] at hexp
    exact exec_keeps_errorExplained (decode_wellFormed hdec) (s := s.setPending rest) hs hexp hexec

end Sys2Proof.Machine
end

section
/-! PROOFS. What the registers read as after a reset (70_reset_and_hazards.md R123). -/

namespace Sys2Proof.Machine

/-! ## The registers made of fields -/

/-- `PARAM` is five bits wide (10_state.md R29; log 3). -/
theorem registerValue_param (s : State) : registerValue .param s = BitVec.ofNat 32 (s.oqDepth % 32) := by
  have hlt : s.oqDepth % 32 < 2 ^ 32 := by omega
  apply BitVec.eq_of_toNat_eq
  rw [registerValue, BitVec.toNat_setWidth_of_le (by decide), BitVec.toNat_ofNat, toNat_of_eq_ofNat rfl hlt]

theorem statusWord_resetBlock (s : State) : statusWord s.resetBlock = 0 := by
  simp [statusWord, ErrCode.code, CaseSeen.code]

theorem cvcfgWord_resetBlock (s : State) : cvcfgWord s.resetBlock = 0x147 := by
  simp [cvcfgWord]

theorem cvstateWord_resetBlock (s : State) : cvstateWord s.resetBlock = 0 := by
  simp [cvstateWord]

/-! ## Both events that reset the block -/

theorem serve_reset (s : State) : serve .reset s = .next s.resetBlock := rfl

theorem exec_sysRst (s : State) : exec .sysRst s = .next s.resetBlock := rfl

/-- Settles O16: the reset line and `SYS.RST` both go on to `resetBlock`, which holds the reset values and keeps
the parameters. -/
theorem registersAfterReset : Obligations.RegistersAfterReset := by
  intro s
  refine ⟨(serve_reset s).trans (exec_sysRst s).symm, s.resetBlock, serve_reset s, rfl,
    State.resetBlock_basePage s, State.resetBlock_oqDepth s, ?id, statusWord_resetBlock s,
    State.resetBlock_errinfo s, ?chk, ?ckres, cvcfgWord_resetBlock s, cvstateWord_resetBlock s,
    oqdataWord_of_nil (State.resetBlock_oq s), registerValue_param s.resetBlock⟩
  case id => rfl
  case chk => exact congrArg (BitVec.setWidth 32) (State.resetBlock_chk s)
  case ckres => exact congrArg (BitVec.setWidth 32) (State.resetBlock_ckres s)

end Sys2Proof.Machine
end
